-- ==== Sys2Proof/Word.lean ====
section
/-!
DEFINITION. The word types of IRIS16 (spec rules R6, R9, R21, R27, R31).
-/

namespace Sys2Proof

/-- A byte: an implicit register, one field of an instruction, one byte of a host stream (R9). -/
abbrev Byte := BitVec 8

/-- A 16-bit word: a general register, a data word, a stack word, a word address (R9, `XLEN` = 16). -/
abbrev Word := BitVec 16

/-- A 32-bit word of the code domain, that is, one instruction (R80, `ILEN` = 32). -/
abbrev CodeWord := BitVec 32

/-- The number of a general register, 0 to 255: every 8-bit value names an existing register (R21). -/
abbrev RegNum := BitVec 8

/-- The index of an implicit byte register, 0 to 255: every 8-bit value names one (R27). -/
abbrev ImplNum := BitVec 8

end Sys2Proof
end

