-- ==== Sys2Proof/Config.lean ====
section
/-!
DEFINITION. What is fixed for the machine: the names of its operations, the reasons of a panic, the record of
the parameters the document leaves open (R7), and the one open value. The decided values of the parameters are
`config` in Machine/Params.lean; here stands only what each parameter is.
-/

namespace Sys2Proof

/-- The 63 operations by name (R90), without operands: the values of the opcode maps. -/
inductive Op where
  -- group 0, arithmetic
  | add | sub | mul | div | rem | shl | shr | and | or | not | xor | addi | subi | muli | divi | remi | shli | shri
  -- group 1, move
  | move | swap | set | ld | ldi | ldc | st | stc | memset | push | pushi | pop
  -- group 2, jump
  | j | jl | jr | jrl | jt | jtl | jrt | jrtl | jf | jfl | jrf | jrfl | ift | iff | iftl | iffl
  -- group 3, compare
  | eq | ne | lt | gt | le | ge | eqi | nei | lti | gti | lei | gei
  -- group 4, misc
  | system | implicitSet | implicitIndirectSet | implicitGet | implicitIndirectGet
deriving DecidableEq, Repr

/-- The reasons of a panic: the closed list of R251. -/
inductive PanicReason where
  /-- the fetched word has group 5, 6 or 7 (R96) -/
  | undefinedGroup
  /-- an operation number outside its group's list (R97, R98) -/
  | undefinedOperation
  /-- `div`, `rem`, `divi`, `remi` with a zero divisor (R127, R128, R138, R139) -/
  | divideByZero
  /-- `system` with index 0 or 5 to 255 (R235) -/
  | undefinedSystemOperation
  /-- `system` with index 4, the program's own panic (R235) -/
  | requested
deriving DecidableEq, Repr

/-- The parameters of R7, and `RESET_IMPL_STACK_TARGET` of R6. Of the two that R7 leaves OPEN, `GETC_EOF` is
`Config.getcEof` below and the initial contents are the fields of `Launch`. -/
structure Config where
  /-- `OPMAP_MOVE`: the operation at list position n has operation number n (R89, decision D2). -/
  opmapMove : List Op
  /-- `OPMAP_JUMP` (R89, decision D3). -/
  opmapJump : List Op
  /-- `OPMAP_COMPARE` (R89, decision D4). -/
  opmapCompare : List Op
  /-- `NIMPL`, how many implicit byte registers there are (R27, decision D10): the length of the file in `State`. -/
  nimpl : Nat
  /-- `IMPL_PREDICATE_INDEX` (R28, decision D10). -/
  implPredicateIndex : ImplNum
  /-- `IMPL_STACK_INDEX` (R28, decision D10). -/
  implStackIndex : ImplNum
  /-- `RESET_IMPL_STACK_TARGET` (R6, R29: "default is r254"). -/
  resetImplStackTarget : RegNum
  /-- `RESET_IMPL_PREDICATE_TARGET` (R29, decision D11). -/
  resetImplPredicateTarget : RegNum
  /-- `RESET_PC` (R26, decision D8). -/
  resetPc : Word
  /-- `LINK_OFFSET` (R182, decision D17). -/
  linkOffset : Word
  /-- `LINK_WHEN_NOT_TAKEN` (R182, decision D18). -/
  linkWhenNotTaken : Bool
  /-- `TRUE_VALUE` (R211, decision D15). -/
  trueValue : Word
  /-- `SIGNED` (R9, R122, R211, decision D12). -/
  signed : Bool
  /-- `STACK_PUSH_DELTA` (R53, decision D20): added by a push, subtracted by a pop, modulo 65536. -/
  stackPushDelta : Word
  /-- `SHIFT_OVER_WIDTH` (R129, decision D14): the result of a shift by 16 or more. -/
  shiftOverWidth : Word
  /-- `DIV_BY_ZERO` (R127, decision D13): the panic a division by zero raises. -/
  divByZero : PanicReason
deriving DecidableEq, Repr

/-- `GETC_EOF` (R233, decision D26): the value the n-th getc at the end of the input stores. OPEN: any 16-bit
value, a draw. Nothing can be proved about it. DESIGN CHOICE of the form, log 6 (safe). -/
opaque Config.getcEof : Nat → BitVec 16

end Sys2Proof
end

