-- ==== Sys2Proof/Machine/Params.lean ====
section
/-!
DEFINITION. The decided values of the parameters of R7 (92_eei_decisions.md). Every other file of the model reads
a parameter through `config`, so a claim can name the value it rests on.
-/

namespace Sys2Proof

/-- The configuration of this machine: the decided default of every parameter of R7.
UNVERIFIED: all but `resetImplStackTarget` are the spec's own decisions; logs 10 to 38 name each. -/
def config : Config where
  opmapMove := [.move, .swap, .set, .ld, .ldi, .ldc, .st, .stc, .memset, .push, .pushi, .pop]
  opmapJump := [.j, .jl, .jr, .jrl, .jt, .jtl, .jrt, .jrtl, .jf, .jfl, .jrf, .jrfl, .ift, .iff, .iftl, .iffl]
  opmapCompare := [.eq, .ne, .lt, .gt, .le, .ge, .eqi, .nei, .lti, .gti, .lei, .gei]
  nimpl := 256
  implPredicateIndex := 0
  implStackIndex := 1
  resetImplStackTarget := 254
  resetImplPredicateTarget := 255
  resetPc := 0
  linkOffset := 1
  linkWhenNotTaken := true
  trueValue := 1
  signed := false
  stackPushDelta := 1
  shiftOverWidth := 0
  divByZero := .divideByZero

/-- Every 8-bit index names an implicit register (R27): no index is out of range. -/
theorem implNum_lt (k : ImplNum) : k.toNat < config.nimpl := k.isLt

end Sys2Proof
end

