-- ==== Sys2Proof/Syntax.lean ====
section
/-!
DEFINITION. The instructions of IRIS16: one constructor per row of spec/opcode_table.json, its operands in the
order of the assembly syntax (R105), each as wide as its field, so that no value of `Instr` is out of range (R21,
R27, R83, R84, R87). Unused fields (R100) are no operands.
-/

namespace Sys2Proof

/-- The 63 instructions (R90). -/
inductive Instr where
  -- group 0, arithmetic
  /-- `add dest src0 src1`, format RRR (R124). -/
  | add (d : RegNum) (s0 : RegNum) (s1 : RegNum)
  /-- `sub dest src0 src1`, format RRR (R125). -/
  | sub (d : RegNum) (s0 : RegNum) (s1 : RegNum)
  /-- `mul dest src0 src1`, format RRR (R126). -/
  | mul (d : RegNum) (s0 : RegNum) (s1 : RegNum)
  /-- `div dest src0 src1`, format RRR (R127). -/
  | div (d : RegNum) (s0 : RegNum) (s1 : RegNum)
  /-- `rem dest src0 src1`, format RRR (R128). -/
  | rem (d : RegNum) (s0 : RegNum) (s1 : RegNum)
  /-- `shl dest src0 src1`, format RRR (R129). -/
  | shl (d : RegNum) (s0 : RegNum) (s1 : RegNum)
  /-- `shr dest src0 src1`, format RRR (R130). -/
  | shr (d : RegNum) (s0 : RegNum) (s1 : RegNum)
  /-- `and dest src0 src1`, format RRR (R131). -/
  | and (d : RegNum) (s0 : RegNum) (s1 : RegNum)
  /-- `or dest src0 src1`, format RRR (R132). -/
  | or (d : RegNum) (s0 : RegNum) (s1 : RegNum)
  /-- `not dest src0`, format RRR (R133). -/
  | not (d : RegNum) (s0 : RegNum)
  /-- `xor dest src0 src1`, format RRR (R134). -/
  | xor (d : RegNum) (s0 : RegNum) (s1 : RegNum)
  /-- `addi dest src0 imm8`, format RRI8 (R135). -/
  | addi (d : RegNum) (s0 : RegNum) (imm : Byte)
  /-- `subi dest src0 imm8`, format RRI8 (R136). -/
  | subi (d : RegNum) (s0 : RegNum) (imm : Byte)
  /-- `muli dest src0 imm8`, format RRI8 (R137). -/
  | muli (d : RegNum) (s0 : RegNum) (imm : Byte)
  /-- `divi dest src0 imm8`, format RRI8 (R138). -/
  | divi (d : RegNum) (s0 : RegNum) (imm : Byte)
  /-- `remi dest src0 imm8`, format RRI8 (R139). -/
  | remi (d : RegNum) (s0 : RegNum) (imm : Byte)
  /-- `shli dest src0 imm8`, format RRI8 (R140). -/
  | shli (d : RegNum) (s0 : RegNum) (imm : Byte)
  /-- `shri dest src0 imm8`, format RRI8 (R141). -/
  | shri (d : RegNum) (s0 : RegNum) (imm : Byte)
  -- group 1, move
  /-- `move dest source`, format RR (R151). -/
  | move (d : RegNum) (s : RegNum)
  /-- `swap dest source`, format RR (R152). -/
  | swap (d : RegNum) (s : RegNum)
  /-- `set dest imm16`, format RI16 (R153). -/
  | set (d : RegNum) (imm : Word)
  /-- `ld dest address_reg`, format RR (R154). -/
  | ld (d : RegNum) (a : RegNum)
  /-- `ldi dest imm16`, format RI16 (R155). -/
  | ldi (d : RegNum) (addr : Word)
  /-- `ldc address_reg dest_lower dest_upper`, format RRR (R156). -/
  | ldc (a : RegNum) (lo : RegNum) (hi : RegNum)
  /-- `st address_reg source`, format RR (R157). -/
  | st (a : RegNum) (s : RegNum)
  /-- `stc address_reg source_lower source_upper`, format RRR (R158). -/
  | stc (a : RegNum) (lo : RegNum) (hi : RegNum)
  /-- `memset address_reg imm16`, format RI16 (R159). -/
  | memset (a : RegNum) (imm : Word)
  /-- `push source`, format R (R160). -/
  | push (s : RegNum)
  /-- `pushi imm16`, format I16 (R161). -/
  | pushi (imm : Word)
  /-- `pop dest`, format R (R162). -/
  | pop (d : RegNum)
  -- group 2, jump
  /-- `j imm16`, format I16 (R183). -/
  | j (target : Word)
  /-- `jl link imm16`, format RI16 (R184). -/
  | jl (l : RegNum) (target : Word)
  /-- `jr address_reg`, format R (R185). -/
  | jr (a : RegNum)
  /-- `jrl link address_reg`, format RR (R186). -/
  | jrl (l : RegNum) (a : RegNum)
  /-- `jt predicate imm16`, format RI16 (R187). -/
  | jt (p : RegNum) (target : Word)
  /-- `jtl link imm16`, format RI16 (R188). -/
  | jtl (l : RegNum) (target : Word)
  /-- `jrt predicate address_reg`, format RR (R189). -/
  | jrt (p : RegNum) (a : RegNum)
  /-- `jrtl predicate address_reg link`, format RRR (R190). -/
  | jrtl (p : RegNum) (a : RegNum) (l : RegNum)
  /-- `jf predicate imm16`, format RI16 (R191). -/
  | jf (p : RegNum) (target : Word)
  /-- `jfl link imm16`, format RI16 (R192). -/
  | jfl (l : RegNum) (target : Word)
  /-- `jrf predicate address_reg`, format RR (R193). -/
  | jrf (p : RegNum) (a : RegNum)
  /-- `jrfl predicate address_reg link`, format RRR (R194). -/
  | jrfl (p : RegNum) (a : RegNum) (l : RegNum)
  /-- `ift predicate on_true_reg on_false_reg`, format RRR (R195). -/
  | ift (p : RegNum) (t : RegNum) (f : RegNum)
  /-- `iff predicate on_true_reg on_false_reg`, format RRR (R196). -/
  | iff (p : RegNum) (t : RegNum) (f : RegNum)
  /-- `iftl link on_true_reg on_false_reg`, format RRR (R197). -/
  | iftl (l : RegNum) (t : RegNum) (f : RegNum)
  /-- `iffl link on_true_reg on_false_reg`, format RRR (R198). -/
  | iffl (l : RegNum) (t : RegNum) (f : RegNum)
  -- group 3, compare
  /-- `eq dest src0 src1`, format RRR (R212). -/
  | eq (d : RegNum) (s0 : RegNum) (s1 : RegNum)
  /-- `ne dest src0 src1`, format RRR (R213). -/
  | ne (d : RegNum) (s0 : RegNum) (s1 : RegNum)
  /-- `lt dest src0 src1`, format RRR (R214). -/
  | lt (d : RegNum) (s0 : RegNum) (s1 : RegNum)
  /-- `gt dest src0 src1`, format RRR (R215). -/
  | gt (d : RegNum) (s0 : RegNum) (s1 : RegNum)
  /-- `le dest src0 src1`, format RRR (R216). -/
  | le (d : RegNum) (s0 : RegNum) (s1 : RegNum)
  /-- `ge dest src0 src1`, format RRR (R217). -/
  | ge (d : RegNum) (s0 : RegNum) (s1 : RegNum)
  /-- `eqi dest src0 imm8`, format RRI8 (R218). -/
  | eqi (d : RegNum) (s0 : RegNum) (imm : Byte)
  /-- `nei dest src0 imm8`, format RRI8 (R219). -/
  | nei (d : RegNum) (s0 : RegNum) (imm : Byte)
  /-- `lti dest src0 imm8`, format RRI8 (R220). -/
  | lti (d : RegNum) (s0 : RegNum) (imm : Byte)
  /-- `gti dest src0 imm8`, format RRI8 (R221). -/
  | gti (d : RegNum) (s0 : RegNum) (imm : Byte)
  /-- `lei dest src0 imm8`, format RRI8 (R222). -/
  | lei (d : RegNum) (s0 : RegNum) (imm : Byte)
  /-- `gei dest src0 imm8`, format RRI8 (R223). -/
  | gei (d : RegNum) (s0 : RegNum) (imm : Byte)
  -- group 4, misc
  /-- `system operation_index ra rb`, format I8RR (R231). -/
  | system (n : Byte) (ra : RegNum) (rb : RegNum)
  /-- `implicit.register.set implicit_index value_reg`, format I8R (R236). -/
  | implicitSet (k : ImplNum) (r : RegNum)
  /-- `implicit.register.indirect.set index_reg value_reg`, format RR (R237). -/
  | implicitIndirectSet (ri : RegNum) (r : RegNum)
  /-- `implicit.register.get dest implicit_index`, format RI8 (R238). -/
  | implicitGet (d : RegNum) (k : ImplNum)
  /-- `implicit.register.indirect.get dest index_reg`, format RR (R239). -/
  | implicitIndirectGet (d : RegNum) (ri : RegNum)
deriving DecidableEq, Repr

end Sys2Proof
end

