-- ==== Sys2Proof/WellFormed.lean ====
section
/-!
DEFINITION. What is well formed: the formats and the fields they use (R82), and the assembly line, an instruction as
it is written (R104 to R106), with the check an assembler makes of it. An `Instr` cannot be ill formed, its operands
being as wide as their fields; an assembly line can: an unknown mnemonic, a wrong number or kind of operands, a register
number or an immediate out of range (R84, decision D37).
-/

namespace Sys2Proof

/-- The nine formats of R82. -/
inductive Format where
  | RRR | RRI8 | RR | RI16 | I16 | R | I8RR | I8R | RI8
deriving DecidableEq, Repr

/-- An operand's place and kind: a register or an 8-bit immediate in field `b1`, `b2` or `b3`, or the 16-bit
immediate `imm16` in bits 31 to 16 (R81, R82). -/
inductive Slot where
  | reg1 | reg2 | reg3 | imm1 | imm2 | imm3 | imm16
deriving DecidableEq, Repr

/-- The operands of a format, in the order in which assembly writes them (R82, R105). -/
def Format.slots : Format → List Slot
  | .RRR => [.reg1, .reg2, .reg3]
  | .RRI8 => [.reg1, .reg2, .imm3]
  | .RR => [.reg1, .reg2]
  | .RI16 => [.reg1, .imm16]
  | .I16 => [.imm16]
  | .R => [.reg1]
  | .I8RR => [.imm1, .reg2, .reg3]
  | .I8R => [.imm1, .reg2]
  | .RI8 => [.reg1, .imm2]

/-- The format of an operation (R90). -/
def Op.format : Op → Format
  | .add | .sub | .mul | .div | .rem | .shl | .shr | .and | .or | .not | .xor | .ldc | .stc | .jrtl | .jrfl 
   | .ift | .iff | .iftl | .iffl | .eq | .ne | .lt | .gt | .le | .ge => .RRR
  | .addi | .subi | .muli | .divi | .remi | .shli | .shri | .eqi | .nei | .lti | .gti | .lei | .gei => .RRI8
  | .move | .swap | .ld | .st | .jrl | .jrt | .jrf | .implicitIndirectSet | .implicitIndirectGet => .RR
  | .set | .ldi | .memset | .jl | .jt | .jtl | .jf | .jfl => .RI16
  | .push | .pop | .jr => .R
  | .pushi | .j => .I16
  | .system => .I8RR
  | .implicitSet => .I8R
  | .implicitGet => .RI8

/-- The operands of an operation: those of its format, but for `not`, whose second source field is not used (R100,
R133). -/
def Op.slots : Op → List Slot
  | .not => [.reg1, .reg2]
  | o => o.format.slots

/-- The bits of an instruction word that a slot takes (R81). -/
def Slot.mask : Slot → CodeWord
  | .reg1 | .imm1 => 0x0000FF00
  | .reg2 | .imm2 => 0x00FF0000
  | .reg3 | .imm3 => 0xFF000000
  | .imm16 => 0xFFFF0000

/-- The bits of an instruction word that mean something for an operation: byte 0 and its operands' fields. The
others are its unused fields (R82, R100). -/
def Op.usedMask (o : Op) : CodeWord := o.slots.foldl (fun m sl => m ||| sl.mask) 0x000000FF

/-- The operation of an instruction. -/
def Instr.op : Instr → Op
  | .add _ _ _ => .add
  | .sub _ _ _ => .sub
  | .mul _ _ _ => .mul
  | .div _ _ _ => .div
  | .rem _ _ _ => .rem
  | .shl _ _ _ => .shl
  | .shr _ _ _ => .shr
  | .and _ _ _ => .and
  | .or _ _ _ => .or
  | .not _ _ => .not
  | .xor _ _ _ => .xor
  | .addi _ _ _ => .addi
  | .subi _ _ _ => .subi
  | .muli _ _ _ => .muli
  | .divi _ _ _ => .divi
  | .remi _ _ _ => .remi
  | .shli _ _ _ => .shli
  | .shri _ _ _ => .shri
  | .move _ _ => .move
  | .swap _ _ => .swap
  | .set _ _ => .set
  | .ld _ _ => .ld
  | .ldi _ _ => .ldi
  | .ldc _ _ _ => .ldc
  | .st _ _ => .st
  | .stc _ _ _ => .stc
  | .memset _ _ => .memset
  | .push _ => .push
  | .pushi _ => .pushi
  | .pop _ => .pop
  | .j _ => .j
  | .jl _ _ => .jl
  | .jr _ => .jr
  | .jrl _ _ => .jrl
  | .jt _ _ => .jt
  | .jtl _ _ => .jtl
  | .jrt _ _ => .jrt
  | .jrtl _ _ _ => .jrtl
  | .jf _ _ => .jf
  | .jfl _ _ => .jfl
  | .jrf _ _ => .jrf
  | .jrfl _ _ _ => .jrfl
  | .ift _ _ _ => .ift
  | .iff _ _ _ => .iff
  | .iftl _ _ _ => .iftl
  | .iffl _ _ _ => .iffl
  | .eq _ _ _ => .eq
  | .ne _ _ _ => .ne
  | .lt _ _ _ => .lt
  | .gt _ _ _ => .gt
  | .le _ _ _ => .le
  | .ge _ _ _ => .ge
  | .eqi _ _ _ => .eqi
  | .nei _ _ _ => .nei
  | .lti _ _ _ => .lti
  | .gti _ _ _ => .gti
  | .lei _ _ _ => .lei
  | .gei _ _ _ => .gei
  | .system _ _ _ => .system
  | .implicitSet _ _ => .implicitSet
  | .implicitIndirectSet _ _ => .implicitIndirectSet
  | .implicitGet _ _ => .implicitGet
  | .implicitIndirectGet _ _ => .implicitIndirectGet

/-- The mnemonic of an operation (R90, R106). -/
def Op.mnemonic : Op → String
  | .add => "add"
  | .sub => "sub"
  | .mul => "mul"
  | .div => "div"
  | .rem => "rem"
  | .shl => "shl"
  | .shr => "shr"
  | .and => "and"
  | .or => "or"
  | .not => "not"
  | .xor => "xor"
  | .addi => "addi"
  | .subi => "subi"
  | .muli => "muli"
  | .divi => "divi"
  | .remi => "remi"
  | .shli => "shli"
  | .shri => "shri"
  | .move => "move"
  | .swap => "swap"
  | .set => "set"
  | .ld => "ld"
  | .ldi => "ldi"
  | .ldc => "ldc"
  | .st => "st"
  | .stc => "stc"
  | .memset => "memset"
  | .push => "push"
  | .pushi => "pushi"
  | .pop => "pop"
  | .j => "j"
  | .jl => "jl"
  | .jr => "jr"
  | .jrl => "jrl"
  | .jt => "jt"
  | .jtl => "jtl"
  | .jrt => "jrt"
  | .jrtl => "jrtl"
  | .jf => "jf"
  | .jfl => "jfl"
  | .jrf => "jrf"
  | .jrfl => "jrfl"
  | .ift => "ift"
  | .iff => "iff"
  | .iftl => "iftl"
  | .iffl => "iffl"
  | .eq => "eq"
  | .ne => "ne"
  | .lt => "lt"
  | .gt => "gt"
  | .le => "le"
  | .ge => "ge"
  | .eqi => "eqi"
  | .nei => "nei"
  | .lti => "lti"
  | .gti => "gti"
  | .lei => "lei"
  | .gei => "gei"
  | .system => "system"
  | .implicitSet => "implicit.register.set"
  | .implicitIndirectSet => "implicit.register.indirect.set"
  | .implicitGet => "implicit.register.get"
  | .implicitIndirectGet => "implicit.register.indirect.get"

/-- Every operation once, in the order of the opcode map (R90). -/
def Op.all : List Op := [
  .add, .sub, .mul, .div, .rem, .shl, .shr, .and, .or, .not, .xor, .addi, .subi, .muli, .divi, .remi, .shli, .shri,
  .move, .swap, .set, .ld, .ldi, .ldc, .st, .stc, .memset, .push, .pushi, .pop,
  .j, .jl, .jr, .jrl, .jt, .jtl, .jrt, .jrtl, .jf, .jfl, .jrf, .jrfl, .ift, .iff, .iftl, .iffl,
  .eq, .ne, .lt, .gt, .le, .ge, .eqi, .nei, .lti, .gti, .lei, .gei,
  .system, .implicitSet, .implicitIndirectSet, .implicitGet, .implicitIndirectGet]

/-- The operation a mnemonic names. `ldm` is a second spelling of `ldi` (R106, decision D33); no other operation has
two (R104). DESIGN CHOICE: the spelling is compared letter for letter, in the lower case the spec prints, so `ADD`
names nothing; on case the spec finds nothing (91_not_in_source.md). Log 34. -/
def Op.ofMnemonic (m : String) : Option Op :=
  if m = "ldm" then some .ldi else Op.all.find? (fun o => o.mnemonic = m)

/-- An operand as it is written: `r<N>` or a number, which may be negative or too large (R84, R104). -/
inductive AsmOperand where
  | reg (n : Nat)
  | imm (n : Int)
deriving DecidableEq, Repr

/-- A line of assembly: a mnemonic and its operands (R104). -/
structure AsmLine where
  mnemonic : String
  operands : List AsmOperand
deriving DecidableEq, Repr

/-- An operand of the right kind and range for its slot: registers r0 to r255, 8-bit immediates 0 to 255, 16-bit
immediates 0 to 65535 (R83, R84, R87, R104). -/
def AsmOperand.fits : Slot → AsmOperand → Bool
  | .reg1, .reg n | .reg2, .reg n | .reg3, .reg n => n < 256
  | .imm1, .imm n | .imm2, .imm n | .imm3, .imm n => 0 ≤ n && n < 256
  | .imm16, .imm n => 0 ≤ n && n < 65536
  | _, _ => false

/-- The operands match the slots, one by one. -/
def AsmOperand.allFit : List Slot → List AsmOperand → Bool
  | [], [] => true
  | sl :: sls, o :: os => o.fits sl && allFit sls os
  | _, _ => false

/-- The assembler's check of a line (R84, R104, R105). -/
def AsmLine.wellFormed (l : AsmLine) : Bool :=
  match Op.ofMnemonic l.mnemonic with
  | none => false
  | some o => AsmOperand.allFit o.slots l.operands

/-- The operands of an instruction as assembly writes them (R105). -/
def Instr.operands : Instr → List AsmOperand
  | .add d s0 s1 => [.reg d.toNat, .reg s0.toNat, .reg s1.toNat]
  | .sub d s0 s1 => [.reg d.toNat, .reg s0.toNat, .reg s1.toNat]
  | .mul d s0 s1 => [.reg d.toNat, .reg s0.toNat, .reg s1.toNat]
  | .div d s0 s1 => [.reg d.toNat, .reg s0.toNat, .reg s1.toNat]
  | .rem d s0 s1 => [.reg d.toNat, .reg s0.toNat, .reg s1.toNat]
  | .shl d s0 s1 => [.reg d.toNat, .reg s0.toNat, .reg s1.toNat]
  | .shr d s0 s1 => [.reg d.toNat, .reg s0.toNat, .reg s1.toNat]
  | .and d s0 s1 => [.reg d.toNat, .reg s0.toNat, .reg s1.toNat]
  | .or d s0 s1 => [.reg d.toNat, .reg s0.toNat, .reg s1.toNat]
  | .not d s0 => [.reg d.toNat, .reg s0.toNat]
  | .xor d s0 s1 => [.reg d.toNat, .reg s0.toNat, .reg s1.toNat]
  | .addi d s0 imm => [.reg d.toNat, .reg s0.toNat, .imm imm.toNat]
  | .subi d s0 imm => [.reg d.toNat, .reg s0.toNat, .imm imm.toNat]
  | .muli d s0 imm => [.reg d.toNat, .reg s0.toNat, .imm imm.toNat]
  | .divi d s0 imm => [.reg d.toNat, .reg s0.toNat, .imm imm.toNat]
  | .remi d s0 imm => [.reg d.toNat, .reg s0.toNat, .imm imm.toNat]
  | .shli d s0 imm => [.reg d.toNat, .reg s0.toNat, .imm imm.toNat]
  | .shri d s0 imm => [.reg d.toNat, .reg s0.toNat, .imm imm.toNat]
  | .move d s => [.reg d.toNat, .reg s.toNat]
  | .swap d s => [.reg d.toNat, .reg s.toNat]
  | .set d imm => [.reg d.toNat, .imm imm.toNat]
  | .ld d a => [.reg d.toNat, .reg a.toNat]
  | .ldi d addr => [.reg d.toNat, .imm addr.toNat]
  | .ldc a lo hi => [.reg a.toNat, .reg lo.toNat, .reg hi.toNat]
  | .st a s => [.reg a.toNat, .reg s.toNat]
  | .stc a lo hi => [.reg a.toNat, .reg lo.toNat, .reg hi.toNat]
  | .memset a imm => [.reg a.toNat, .imm imm.toNat]
  | .push s => [.reg s.toNat]
  | .pushi imm => [.imm imm.toNat]
  | .pop d => [.reg d.toNat]
  | .j target => [.imm target.toNat]
  | .jl l target => [.reg l.toNat, .imm target.toNat]
  | .jr a => [.reg a.toNat]
  | .jrl l a => [.reg l.toNat, .reg a.toNat]
  | .jt p target => [.reg p.toNat, .imm target.toNat]
  | .jtl l target => [.reg l.toNat, .imm target.toNat]
  | .jrt p a => [.reg p.toNat, .reg a.toNat]
  | .jrtl p a l => [.reg p.toNat, .reg a.toNat, .reg l.toNat]
  | .jf p target => [.reg p.toNat, .imm target.toNat]
  | .jfl l target => [.reg l.toNat, .imm target.toNat]
  | .jrf p a => [.reg p.toNat, .reg a.toNat]
  | .jrfl p a l => [.reg p.toNat, .reg a.toNat, .reg l.toNat]
  | .ift p t f => [.reg p.toNat, .reg t.toNat, .reg f.toNat]
  | .iff p t f => [.reg p.toNat, .reg t.toNat, .reg f.toNat]
  | .iftl l t f => [.reg l.toNat, .reg t.toNat, .reg f.toNat]
  | .iffl l t f => [.reg l.toNat, .reg t.toNat, .reg f.toNat]
  | .eq d s0 s1 => [.reg d.toNat, .reg s0.toNat, .reg s1.toNat]
  | .ne d s0 s1 => [.reg d.toNat, .reg s0.toNat, .reg s1.toNat]
  | .lt d s0 s1 => [.reg d.toNat, .reg s0.toNat, .reg s1.toNat]
  | .gt d s0 s1 => [.reg d.toNat, .reg s0.toNat, .reg s1.toNat]
  | .le d s0 s1 => [.reg d.toNat, .reg s0.toNat, .reg s1.toNat]
  | .ge d s0 s1 => [.reg d.toNat, .reg s0.toNat, .reg s1.toNat]
  | .eqi d s0 imm => [.reg d.toNat, .reg s0.toNat, .imm imm.toNat]
  | .nei d s0 imm => [.reg d.toNat, .reg s0.toNat, .imm imm.toNat]
  | .lti d s0 imm => [.reg d.toNat, .reg s0.toNat, .imm imm.toNat]
  | .gti d s0 imm => [.reg d.toNat, .reg s0.toNat, .imm imm.toNat]
  | .lei d s0 imm => [.reg d.toNat, .reg s0.toNat, .imm imm.toNat]
  | .gei d s0 imm => [.reg d.toNat, .reg s0.toNat, .imm imm.toNat]
  | .system n ra rb => [.imm n.toNat, .reg ra.toNat, .reg rb.toNat]
  | .implicitSet k r => [.imm k.toNat, .reg r.toNat]
  | .implicitIndirectSet ri r => [.reg ri.toNat, .reg r.toNat]
  | .implicitGet d k => [.reg d.toNat, .imm k.toNat]
  | .implicitIndirectGet d ri => [.reg d.toNat, .reg ri.toNat]

/-- An instruction written out as a line of assembly (R105). -/
def Instr.asm (i : Instr) : AsmLine := ⟨i.op.mnemonic, i.operands⟩

/-- An instruction is well formed when an assembler accepts it as it is written. Every `Instr` is
(the family `Accepted` of Laws/PerInstr.lean): its operands cannot be out of range. -/
def Instr.wellFormed (i : Instr) : Bool := i.asm.wellFormed

end Sys2Proof
end

