-- ==== Sys2Proof/Decode.lean ====
section
/-!
DEFINITION. Decoding (R80, R81, R88 to R91, R96 to R100), total on every word, rejecting by the name of the panic an
undefined encoding raises; then the encoder, from the same tables.
-/

namespace Sys2Proof

/-! ### Fields of an instruction word (R81) -/

/-- `grp` = `w[2:0]`. -/
def grpOf (w : CodeWord) : BitVec 3 := w.extractLsb' 0 3
/-- `op` = `w[7:3]`. -/
def opOf (w : CodeWord) : BitVec 5 := w.extractLsb' 3 5
/-- Byte 0 of an instruction, `w[7:0]`, the group and the operation. -/
def byte0 (w : CodeWord) : Byte := w.extractLsb' 0 8
/-- `b1` = `w[15:8]`. -/
def b1 (w : CodeWord) : Byte := w.extractLsb' 8 8
/-- `b2` = `w[23:16]`. -/
def b2 (w : CodeWord) : Byte := w.extractLsb' 16 8
/-- `b3` = `w[31:24]`. -/
def b3 (w : CodeWord) : Byte := w.extractLsb' 24 8
/-- `imm16` = `w[31:16]`, used as is (R83). -/
def imm16 (w : CodeWord) : Word := w.extractLsb' 16 16

/-! ### The opcode map (R88 to R90) -/

/-- The arithmetic operations; the document numbers them 0 to 17 itself (R89, R90). -/
def opmapArithmetic : List Op :=
  [.add, .sub, .mul, .div, .rem, .shl, .shr, .and, .or, .not, .xor, .addi, .subi, .muli, .divi, .remi, .shli, .shri]

/-- The misc operations; the document numbers them 0 to 4 itself (R89, R90). -/
def opmapMisc : List Op := [.system, .implicitSet, .implicitIndirectSet, .implicitGet, .implicitIndirectGet]

/-- The operations of a group: the operation at list position n has operation number n. Groups 5 to 7 have none
(R90, R96). -/
def opmap (g : Nat) : Option (List Op) :=
  match g with
  | 0 => some opmapArithmetic
  | 1 => some config.opmapMove
  | 2 => some config.opmapJump
  | 3 => some config.opmapCompare
  | 4 => some opmapMisc
  | _ => none

/-- What a word decodes to: an instruction, or the panic its undefined encoding raises. -/
inductive Decoded where
  | instr (i : Instr)
  /-- an undefined encoding: R96 `undefinedGroup`, R97 and R98 `undefinedOperation` -/
  | undefined (r : PanicReason)
deriving DecidableEq, Repr

/-- The instruction of an operation with its operands taken from a word (R82, R90). Fields the format does not use
are not looked at (R100). -/
def buildInstr (o : Op) (w : CodeWord) : Instr :=
  match o with
  | .add => .add (b1 w) (b2 w) (b3 w)
  | .sub => .sub (b1 w) (b2 w) (b3 w)
  | .mul => .mul (b1 w) (b2 w) (b3 w)
  | .div => .div (b1 w) (b2 w) (b3 w)
  | .rem => .rem (b1 w) (b2 w) (b3 w)
  | .shl => .shl (b1 w) (b2 w) (b3 w)
  | .shr => .shr (b1 w) (b2 w) (b3 w)
  | .and => .and (b1 w) (b2 w) (b3 w)
  | .or => .or (b1 w) (b2 w) (b3 w)
  | .not => .not (b1 w) (b2 w)
  | .xor => .xor (b1 w) (b2 w) (b3 w)
  | .addi => .addi (b1 w) (b2 w) (b3 w)
  | .subi => .subi (b1 w) (b2 w) (b3 w)
  | .muli => .muli (b1 w) (b2 w) (b3 w)
  | .divi => .divi (b1 w) (b2 w) (b3 w)
  | .remi => .remi (b1 w) (b2 w) (b3 w)
  | .shli => .shli (b1 w) (b2 w) (b3 w)
  | .shri => .shri (b1 w) (b2 w) (b3 w)
  | .move => .move (b1 w) (b2 w)
  | .swap => .swap (b1 w) (b2 w)
  | .set => .set (b1 w) (imm16 w)
  | .ld => .ld (b1 w) (b2 w)
  | .ldi => .ldi (b1 w) (imm16 w)
  | .ldc => .ldc (b1 w) (b2 w) (b3 w)
  | .st => .st (b1 w) (b2 w)
  | .stc => .stc (b1 w) (b2 w) (b3 w)
  | .memset => .memset (b1 w) (imm16 w)
  | .push => .push (b1 w)
  | .pushi => .pushi (imm16 w)
  | .pop => .pop (b1 w)
  | .j => .j (imm16 w)
  | .jl => .jl (b1 w) (imm16 w)
  | .jr => .jr (b1 w)
  | .jrl => .jrl (b1 w) (b2 w)
  | .jt => .jt (b1 w) (imm16 w)
  | .jtl => .jtl (b1 w) (imm16 w)
  | .jrt => .jrt (b1 w) (b2 w)
  | .jrtl => .jrtl (b1 w) (b2 w) (b3 w)
  | .jf => .jf (b1 w) (imm16 w)
  | .jfl => .jfl (b1 w) (imm16 w)
  | .jrf => .jrf (b1 w) (b2 w)
  | .jrfl => .jrfl (b1 w) (b2 w) (b3 w)
  | .ift => .ift (b1 w) (b2 w) (b3 w)
  | .iff => .iff (b1 w) (b2 w) (b3 w)
  | .iftl => .iftl (b1 w) (b2 w) (b3 w)
  | .iffl => .iffl (b1 w) (b2 w) (b3 w)
  | .eq => .eq (b1 w) (b2 w) (b3 w)
  | .ne => .ne (b1 w) (b2 w) (b3 w)
  | .lt => .lt (b1 w) (b2 w) (b3 w)
  | .gt => .gt (b1 w) (b2 w) (b3 w)
  | .le => .le (b1 w) (b2 w) (b3 w)
  | .ge => .ge (b1 w) (b2 w) (b3 w)
  | .eqi => .eqi (b1 w) (b2 w) (b3 w)
  | .nei => .nei (b1 w) (b2 w) (b3 w)
  | .lti => .lti (b1 w) (b2 w) (b3 w)
  | .gti => .gti (b1 w) (b2 w) (b3 w)
  | .lei => .lei (b1 w) (b2 w) (b3 w)
  | .gei => .gei (b1 w) (b2 w) (b3 w)
  | .system => .system (b1 w) (b2 w) (b3 w)
  | .implicitSet => .implicitSet (b1 w) (b2 w)
  | .implicitIndirectSet => .implicitIndirectSet (b1 w) (b2 w)
  | .implicitGet => .implicitGet (b1 w) (b2 w)
  | .implicitIndirectGet => .implicitIndirectGet (b1 w) (b2 w)

/-- Two-level decoding: the group first, then the operation inside it (R88, R256). -/
def decode (w : CodeWord) : Decoded :=
  match opmap (grpOf w).toNat with
  | none => .undefined .undefinedGroup
  | some ops =>
    match ops[(opOf w).toNat]? with
    | none => .undefined .undefinedOperation
    | some o => .instr (buildInstr o w)

/-! ### Bytes (R57) -/

/-- The 32-bit word with these bytes, byte 0 in bits 7 to 0 and byte 3 in bits 31 to 24 (R57), by the formula of R81. -/
def packWord (c0 c1 c2 c3 : Byte) : CodeWord :=
  BitVec.ofNat 32 (c0.toNat + c1.toNat * 2 ^ 8 + c2.toNat * 2 ^ 16 + c3.toNat * 2 ^ 24)

/-- Decoding the first instruction of a byte image, least significant byte first (R57): what it decodes to and the
bytes after it. `none` when fewer than four bytes are left: there is no shorter instruction (R80). -/
def decodeBytes : List Byte → Option (Decoded × List Byte)
  | c0 :: c1 :: c2 :: c3 :: rest => some (decode (packWord c0 c1 c2 c3), rest)
  | _ => none

/-! ### The encoder -/

/-- The group of an operation (R90). -/
def Op.group (o : Op) : Nat :=
  if o ∈ opmapArithmetic then 0
  else if o ∈ config.opmapMove then 1
  else if o ∈ config.opmapJump then 2
  else if o ∈ config.opmapCompare then 3
  else 4

/-- The number of an operation inside its group: its position in the group's map (R89, R90). -/
def Op.number (o : Op) : Nat := ((opmap o.group).getD []).idxOf o

/-- Byte 0 of an operation: `op * 8 + grp` (R81, R88). -/
def Op.byte0 (o : Op) : Byte := BitVec.ofNat 8 (o.number * 8 + o.group)

/-- The fields `b1`, `b2`, `b3` of an instruction; unused fields are written as zero (R82, R100), and `imm16` is
`b3 ++ b2` (R81). -/
def Instr.fields : Instr → Byte × Byte × Byte
  | .add d s0 s1 => (d, s0, s1)
  | .sub d s0 s1 => (d, s0, s1)
  | .mul d s0 s1 => (d, s0, s1)
  | .div d s0 s1 => (d, s0, s1)
  | .rem d s0 s1 => (d, s0, s1)
  | .shl d s0 s1 => (d, s0, s1)
  | .shr d s0 s1 => (d, s0, s1)
  | .and d s0 s1 => (d, s0, s1)
  | .or d s0 s1 => (d, s0, s1)
  | .not d s0 => (d, s0, 0)
  | .xor d s0 s1 => (d, s0, s1)
  | .addi d s0 imm => (d, s0, imm)
  | .subi d s0 imm => (d, s0, imm)
  | .muli d s0 imm => (d, s0, imm)
  | .divi d s0 imm => (d, s0, imm)
  | .remi d s0 imm => (d, s0, imm)
  | .shli d s0 imm => (d, s0, imm)
  | .shri d s0 imm => (d, s0, imm)
  | .move d s => (d, s, 0)
  | .swap d s => (d, s, 0)
  | .set d imm => (d, imm.extractLsb' 0 8, imm.extractLsb' 8 8)
  | .ld d a => (d, a, 0)
  | .ldi d addr => (d, addr.extractLsb' 0 8, addr.extractLsb' 8 8)
  | .ldc a lo hi => (a, lo, hi)
  | .st a s => (a, s, 0)
  | .stc a lo hi => (a, lo, hi)
  | .memset a imm => (a, imm.extractLsb' 0 8, imm.extractLsb' 8 8)
  | .push s => (s, 0, 0)
  | .pushi imm => (0, imm.extractLsb' 0 8, imm.extractLsb' 8 8)
  | .pop d => (d, 0, 0)
  | .j target => (0, target.extractLsb' 0 8, target.extractLsb' 8 8)
  | .jl l target => (l, target.extractLsb' 0 8, target.extractLsb' 8 8)
  | .jr a => (a, 0, 0)
  | .jrl l a => (l, a, 0)
  | .jt p target => (p, target.extractLsb' 0 8, target.extractLsb' 8 8)
  | .jtl l target => (l, target.extractLsb' 0 8, target.extractLsb' 8 8)
  | .jrt p a => (p, a, 0)
  | .jrtl p a l => (p, a, l)
  | .jf p target => (p, target.extractLsb' 0 8, target.extractLsb' 8 8)
  | .jfl l target => (l, target.extractLsb' 0 8, target.extractLsb' 8 8)
  | .jrf p a => (p, a, 0)
  | .jrfl p a l => (p, a, l)
  | .ift p t f => (p, t, f)
  | .iff p t f => (p, t, f)
  | .iftl l t f => (l, t, f)
  | .iffl l t f => (l, t, f)
  | .eq d s0 s1 => (d, s0, s1)
  | .ne d s0 s1 => (d, s0, s1)
  | .lt d s0 s1 => (d, s0, s1)
  | .gt d s0 s1 => (d, s0, s1)
  | .le d s0 s1 => (d, s0, s1)
  | .ge d s0 s1 => (d, s0, s1)
  | .eqi d s0 imm => (d, s0, imm)
  | .nei d s0 imm => (d, s0, imm)
  | .lti d s0 imm => (d, s0, imm)
  | .gti d s0 imm => (d, s0, imm)
  | .lei d s0 imm => (d, s0, imm)
  | .gei d s0 imm => (d, s0, imm)
  | .system n ra rb => (n, ra, rb)
  | .implicitSet k r => (k, r, 0)
  | .implicitIndirectSet ri r => (ri, r, 0)
  | .implicitGet d k => (d, k, 0)
  | .implicitIndirectGet d ri => (d, ri, 0)

/-- The word of an instruction: `grp + op * 8 + b1 * 2^8 + b2 * 2^16 + b3 * 2^24` (R81). -/
def encode (i : Instr) : CodeWord := packWord i.op.byte0 i.fields.1 i.fields.2.1 i.fields.2.2

/-- The bytes of an instruction in an image, byte 0 first (R57). -/
def encodeBytes (i : Instr) : List Byte :=
  let w := encode i
  [byte0 w, b1 w, b2 w, b3 w]

/-! ### The host's reading of a table word -/

/-- The word whose bits are `w` as spec/opcode_table.json numbers them (the whole instruction is one 32-bit word,
R80); the bits from `nbits` up are zero. -/
def tableWord (nbits w : Nat) : CodeWord := BitVec.ofNat 32 (w % 2 ^ nbits)

/-- The instruction the decoder reads from a word of the opcode table, laid out as a byte image (R57); `none` where
the encoding is undefined. -/
def decodeTableWord (nbits w : Nat) : Option Instr :=
  let t := tableWord nbits w
  match decodeBytes [byte0 t, b1 t, b2 t, b3 t] with
  | some (.instr i, _) => some i
  | _ => none

end Sys2Proof
end

