-- ==== Sys2Proof/Machine/Flags.lean ====
section
/-!
DEFINITION. Truth values. The machine has no flags (R30): a comparison leaves its truth value in a general register
and a conditional jump tests a general register for zero.
-/

namespace Sys2Proof.Machine

/-- A predicate register counts as true when it is not zero (R30, R187). -/
def isTrue (v : Word) : Bool := v ≠ 0

/-- The value a comparison stores (R211). -/
def truthValue (b : Bool) : Word := if b then config.trueValue else 0

/-- `a < b` (R211): unsigned; two's complement if `SIGNED` (never reached with the decided configuration, log 39). -/
def ltWord (a b : Word) : Bool := if config.signed then a.slt b else a.ult b

/-- `a <= b` (R211), as `ltWord`. -/
def leWord (a b : Word) : Bool := if config.signed then a.sle b else a.ule b

end Sys2Proof.Machine
end

