-- ==== Sys2Proof/Machine/Operands.lean ====
section
/-!
DEFINITION. The operand forms: widening, narrowing and halving of values (R10, R56, R84, R85), and the arithmetic of
group 0 on 16-bit values (R121, R122, R124 to R141).
-/

namespace Sys2Proof.Machine

/-- `zext_16` of a byte: an 8-bit immediate, an input byte, an implicit register (R84, R85, R233, R238). -/
def zext16 (v : Byte) : Word := v.setWidth 16

/-- `v[7:0]`, the low byte of a register (R234, R236, R237, R239). -/
def lowByte (v : Word) : Byte := v.extractLsb' 0 8

/-- `trunc16` of an integer (R10, R121). -/
def trunc16 (n : Nat) : Word := BitVec.ofNat 16 n

/-- The lower half `w[15:0]` of a code word (R56). -/
def lowerHalf (w : CodeWord) : Word := w.extractLsb' 0 16

/-- The upper half `w[31:16]` of a code word (R56). -/
def upperHalf (w : CodeWord) : Word := w.extractLsb' 16 16

/-- `hi ++ lo`, the code word `hi * 65536 + lo` (R56, R158). -/
def joinHalves (hi lo : Word) : CodeWord := BitVec.ofNat 32 (hi.toNat * 65536 + lo.toNat)

/-- Unsigned floor division (R127). With `SIGNED` the two's-complement quotient: a DESIGN CHOICE the decided
configuration never reaches, log 39. -/
def quotient (a b : Word) : Word :=
  if config.signed then a.sdiv b else trunc16 (a.toNat / b.toNat)

/-- Unsigned remainder (R128). `SIGNED` as for `quotient`. -/
def remainder (a b : Word) : Word :=
  if config.signed then a.srem b else trunc16 (a.toNat % b.toNat)

/-- Shift left by the whole count `n`; a count of 16 or more gives `SHIFT_OVER_WIDTH` (R129). -/
def shiftLeft (a n : Word) : Word :=
  if n.toNat ≥ 16 then config.shiftOverWidth else a <<< n.toNat

/-- Logical shift right by the whole count `n`; a count of 16 or more gives `SHIFT_OVER_WIDTH` (R130). `SIGNED` as
for `quotient`: then the sign bit is replicated. -/
def shiftRight (a n : Word) : Word :=
  if n.toNat ≥ 16 then config.shiftOverWidth
  else if config.signed then a.sshiftRight n.toNat else a >>> n.toNat

end Sys2Proof.Machine
end

