-- ==== Sys2Proof/Machine/Memory.lean ====
section
/-!
DEFINITION. One memory domain (R31, R50 to R52, R54, R58, R60): words at word addresses. The three domains differ in
their word width only. The unit is the whole word, since no address names less (R31, R55); log 1.
-/

namespace Sys2Proof.Machine

/-- A domain's contents: (word address, word) pairs in one canonical form, `Mem.wf`. -/
abbrev Mem (w : Nat) := List (Nat × BitVec w)

/-- What a word reads as that nothing has written and no launch supplied (R31, R281: unspecified).
DESIGN CHOICE zero, log 2 (unsafe). -/
def Mem.unlisted {w : Nat} : BitVec w := 0

/-- The word at address `a` (R54: the value of the most recent write to that address, or the initial content). -/
def Mem.read {w : Nat} (m : Mem w) (a : Nat) : BitVec w :=
  match m with
  | [] => Mem.unlisted
  | (b, v) :: rest => if a = b then v else Mem.read rest a

/-- Everything but the entries of address `a`. -/
def Mem.erase {w : Nat} (m : Mem w) (a : Nat) : Mem w := m.filter (fun c => c.1 ≠ a)

/-- A new entry put before the first entry of a higher address. -/
def Mem.insert {w : Nat} (a : Nat) (v : BitVec w) : Mem w → Mem w
  | [] => [(a, v)]
  | (b, u) :: rest => if a < b then (a, v) :: (b, u) :: rest else (b, u) :: Mem.insert a v rest

/-- The memory after the word `v` is stored at address `a`. Storing what an unlisted address reads as leaves no
entry, so that equal memories are equal data. -/
def Mem.write {w : Nat} (m : Mem w) (a : Nat) (v : BitVec w) : Mem w :=
  if v = Mem.unlisted then Mem.erase m a else Mem.insert a v (Mem.erase m a)

/-- The addresses rise strictly from `lo` on, stay below 65536 (R31), and no entry holds what an unlisted address
reads as. -/
def Mem.wfFrom {w : Nat} (lo : Nat) : Mem w → Bool
  | [] => true
  | (a, v) :: rest => lo ≤ a && a < 65536 && v ≠ Mem.unlisted && Mem.wfFrom (a + 1) rest

/-- The canonical form of a domain. -/
def Mem.wf {w : Nat} (m : Mem w) : Bool := Mem.wfFrom 0 m

end Sys2Proof.Machine
end

