-- ==== Sys2Proof/Machine/Launch.lean ====
section
/-!
DEFINITION. What the spec leaves to the launch of a run (R7, R24, R29, R281, R282, decisions D9, D26, D35): the
contents of the registers, the unused implicit registers and the three memories, and the input stream.
-/

namespace Sys2Proof.Machine

/-- The host input stream (R33): the bytes not yet taken, and whether the host has closed it behind them. -/
structure InputStream where
  /-- the bytes still to be taken, the next one first -/
  pending : List Byte
  /-- no byte will follow `pending`: the stream ends there (R233) -/
  closed : Bool
deriving DecidableEq, Repr

/-- The inputs of a launch. -/
structure Launch where
  /-- general registers r0 to r255 (R24: any value) -/
  regs : Vector Word 256
  /-- implicit registers; reset overwrites the two used ones (R29: the rest any value) -/
  impl : Vector Byte config.nimpl
  /-- the loaded program, and what code memory holds elsewhere (R31, R281) -/
  code : Mem 32
  /-- data memory (R31, R281) -/
  data : Mem 16
  /-- stack memory (R31, R281) -/
  stack : Mem 16
  /-- the input stream (R33, R281) -/
  stdin : InputStream
  /-- the model's own: where the run's draws of open values start (R233, log 6) -/
  draws : Nat
deriving DecidableEq, Repr

/-- The launch of `State.reset`: nothing loaded, nothing supplied. DESIGN CHOICE, the spec gives none of these:
registers zero (log 3), unused implicit registers zero (log 4), memories as unlisted words read (log 2), an input stream
that is empty and at its end (log 5), draws from 0 (log 6). All unsafe but the last. -/
def Launch.nothing : Launch where
  regs := Vector.replicate 256 0
  impl := Vector.replicate config.nimpl 0
  code := []
  data := []
  stack := []
  stdin := { pending := [], closed := true }
  draws := 0

end Sys2Proof.Machine
end

