-- ==== Sys2Proof/Machine/State.lean ====
section
/-!
DEFINITION. The state of IRIS16, exactly the table of R20 and one field of the model's own (`draws`), the reasons a
step can stop, and the state after reset (R281).
-/

namespace Sys2Proof.Machine

/-- The run status (R32). -/
inductive RunStatus where
  /-- from reset on -/
  | running
  /-- after `system` operation 1, the only normal end of a run (R232) -/
  | halted
  /-- after a panic (R252); never a correct end of a run -/
  | panicked (r : PanicReason)
deriving DecidableEq, Repr

/-- The architectural state (R20). Memories and register files are read and written through Machine/Ops.lean. -/
structure State where
  /-- general registers `x[0..255]` (R21) -/
  regs : Vector Word 256
  /-- implicit byte registers `impl[0..NIMPL-1]` (R27) -/
  impl : Vector Byte config.nimpl
  /-- program counter (R25) -/
  pc : Word
  /-- code memory `CODE` (R50) -/
  code : Mem 32
  /-- data memory `DATA` (R51) -/
  data : Mem 16
  /-- stack memory `STACK` (R52) -/
  stack : Mem 16
  /-- run status (R32) -/
  status : RunStatus
  /-- host input stream (R33) -/
  stdin : InputStream
  /-- host output stream, the oldest byte first (R33) -/
  stdout : List Byte
  /-- THE MODEL'S OWN: how many open values the run has drawn (R233, D26; log 6). Nothing reads it but the next
  draw. -/
  draws : Nat
deriving DecidableEq, Repr

/-- Why a step is not made. None of them is a panic: taking a panic is a next state (R252). -/
inductive Fault where
  /-- `step` at a state whose status is `Halted`: the machine executes no further step (R32). Safe. -/
  | halted
  /-- `step` at a state whose status is `Panicked r`: the machine executes no further step (R32, R252). Safe. -/
  | panicked (r : PanicReason)
  /-- `system` 2 (getc) when the input stream is open and holds no byte: the machine makes no step until a byte
  arrives (R233; stuck, V6 of 93_implementation_defined.md). Nothing has changed; once the host has supplied a byte
  (`State.supplyInput`) or closed the stream the step is made. Safe; log 7. -/
  | awaitingInput
deriving DecidableEq, Repr

/-- Why an instruction is given no meaning. -/
inductive Refusal where
  /-- an instruction of the opcode table without a meaning; no arm of `exec` answers it. Safe. -/
  | notModelled (mnemonic : String)
deriving DecidableEq, Repr

/-- What one instruction or one step answers. -/
abbrev Result := Host.Outcome State Fault Refusal

/-- The state after reset with a launch's inputs (R281): `pc` = `RESET_PC`, status `Running`, the two used implicit
registers at their default targets, nothing written to the output, and everything else as the launch supplies it.
Reset is the only way out of `Halted` and `Panicked` (R260, R280). -/
def State.launch (l : Launch) : State where
  regs := l.regs
  impl := (l.impl.set config.implPredicateIndex.toNat config.resetImplPredicateTarget
      (implNum_lt _)).set
    config.implStackIndex.toNat config.resetImplStackTarget (implNum_lt _)
  pc := config.resetPc
  code := l.code
  data := l.data
  stack := l.stack
  status := .running
  stdin := l.stdin
  stdout := []
  draws := l.draws

/-- The machine right after reset, nothing having been loaded or supplied (R281; logs 2 to 6). -/
def State.reset : State := State.launch Launch.nothing

end Sys2Proof.Machine
end

