-- ==== Sys2Proof/Machine/Ops.lean ====
section
/-!
DEFINITION. The named operations over registers, memories, program counter and status that the meanings share.
-/

namespace Sys2Proof.Machine

/-! ### Registers (R21, R22, R27, R28) -/

/-- `x[i]`: no register is hardwired (R22). -/
def State.readReg (s : State) (i : RegNum) : Word := s.regs[i.toNat]'i.isLt

/-- `x[i] <- v`: no register ignores a write (R22). -/
def State.writeReg (s : State) (i : RegNum) (v : Word) : State := { s with regs := s.regs.set i.toNat v i.isLt }

/-- `impl[k]` (R27). -/
def State.readImpl (s : State) (k : ImplNum) : Byte := s.impl[k.toNat]'(implNum_lt k)

/-- `impl[k] <- v` (R27). -/
def State.writeImpl (s : State) (k : ImplNum) (v : Byte) : State := { s with impl := s.impl.set k.toNat v (implNum_lt k) }

/-- `sp_idx`, the number of the general register used as stack pointer (R28). -/
def State.spIdx (s : State) : RegNum := s.readImpl config.implStackIndex

/-- `pred_idx`, the number of the general register used as implied predicate (R28). -/
def State.predIdx (s : State) : RegNum := s.readImpl config.implPredicateIndex

/-! ### The three memories (R10, R50 to R52) -/

/-- `MemRead(CODE, a, 32)` -/
def State.readCode (s : State) (a : Word) : CodeWord := Mem.read s.code a.toNat
/-- `MemWrite(CODE, a, 32, v)` -/
def State.writeCode (s : State) (a : Word) (v : CodeWord) : State := { s with code := Mem.write s.code a.toNat v }
/-- `MemRead(DATA, a, 16)` -/
def State.readData (s : State) (a : Word) : Word := Mem.read s.data a.toNat
/-- `MemWrite(DATA, a, 16, v)` -/
def State.writeData (s : State) (a : Word) (v : Word) : State := { s with data := Mem.write s.data a.toNat v }
/-- `MemRead(STACK, a, 16)` -/
def State.readStack (s : State) (a : Word) : Word := Mem.read s.stack a.toNat
/-- `MemWrite(STACK, a, 16, v)` -/
def State.writeStack (s : State) (a : Word) (v : Word) : State := { s with stack := Mem.write s.stack a.toNat v }

/-! ### The program counter (R11, R26, R181, R182) -/

/-- `pc <- t` -/
def State.jumpTo (s : State) (t : Word) : State := { s with pc := t }

/-- `trunc16(pc + 1)`, the address of the instruction that follows in memory (R26). -/
def State.nextPc (s : State) : Word := s.pc + 1

/-- `pc <- trunc16(pc + 1)` (R11, R26). -/
def State.advance (s : State) : State := s.jumpTo s.nextPc

/-- `link` = `trunc16(pc + LINK_OFFSET)`, with `pc` the address of the jump itself (R182). -/
def State.link (s : State) : Word := s.pc + config.linkOffset

/-- The link store of a jump: always when the jump is taken, and when it is not if `LINK_WHEN_NOT_TAKEN` (R182). -/
def State.writeLink (s : State) (taken : Bool) (l : RegNum) : State :=
  if taken || config.linkWhenNotTaken then s.writeReg l s.link else s

/-- A conditional jump's program counter: the target when taken, else the next instruction (R181). -/
def State.branch (s : State) (taken : Bool) (target : Word) : State :=
  if taken then s.jumpTo target else s.advance

/-! ### Status and streams (R32, R33, R233, R234, R252) -/

/-- `status <- v` -/
def State.setStatus (s : State) (v : RunStatus) : State := { s with status := v }

/-- `Out(c)` (R234) -/
def State.output (s : State) (c : Byte) : State := { s with stdout := s.stdout ++ [c] }

/-- The input stream replaced. -/
def State.setStdin (s : State) (i : InputStream) : State := { s with stdin := i }

/-- One open value has been drawn (R233, log 6). -/
def State.countDraw (s : State) : State := { s with draws := s.draws + 1 }

/-- `raise Panic(r)`, the machine's only exceptional event (R250, R252): the instruction writes nothing, `pc` keeps
its address, and the status becomes `Panicked(r)`. Nothing is saved and control goes nowhere (R259); there is no
return from it (R260). -/
def panic (r : PanicReason) (s : State) : Result := .next (s.setStatus (.panicked r))

/-! ### Shapes of an effect -/

/-- `x[d] <- v`, then the next instruction. -/
def writeBack (d : RegNum) (v : Word) (s : State) : Result := .next (s.writeReg d v).advance

/-- `if divisor = 0 then raise Panic(DivideByZero) else x[d] <- v` (R127, R128, R138, R139). -/
def divideBack (d : RegNum) (divisor v : Word) (s : State) : Result :=
  if divisor = 0 then panic config.divByZero s else writeBack d v s

/-- A push: pre-increment, store, and the pointer written at the end (R160, R161). The pointer register is named by
the implicit register at the start (R163). -/
def pushWord (v : Word) (s : State) : Result :=
  let a := s.readReg s.spIdx + config.stackPushDelta
  .next ((s.writeStack a v).writeReg s.spIdx a).advance

/-! ### Fetch and the step (R11, R50, R256) -/

/-- `MemRead(CODE, pc, 32)`: one whole word; fetch cannot fail (R50, R256). -/
def State.fetch (s : State) : CodeWord := s.readCode s.pc

/-- Why a machine that is not running executes no step (R32). -/
def RunStatus.stopped : RunStatus → Option Fault
  | .running => none
  | .halted => some .halted
  | .panicked r => some (.panicked r)

/-- The state with a word of the opcode table stored where the next instruction is fetched: in code memory at `pc`
(R50). -/
def State.placeFetchWord (s : State) (nbits w : Nat) : State := s.writeCode s.pc (tableWord nbits w)

end Sys2Proof.Machine
end

