-- ==== Sys2Proof/Machine/Arithmetic.lean ====
section
/-!
DEFINITION. Group 0, arithmetic (R120 to R142). Every operand is read from the state before the one write (R11, R123).
-/

namespace Sys2Proof.Machine

/-- `x[d] <- trunc16(x[s0] + x[s1])` (R124). -/
def execAdd (d s0 s1 : RegNum) (s : State) : Result :=
  writeBack d (s.readReg s0 + s.readReg s1) s

/-- `x[d] <- trunc16(x[s0] + 65536 - x[s1])` (R125). -/
def execSub (d s0 s1 : RegNum) (s : State) : Result :=
  writeBack d (s.readReg s0 - s.readReg s1) s

/-- `x[d] <- trunc16(x[s0] * x[s1])` (R126). -/
def execMul (d s0 s1 : RegNum) (s : State) : Result :=
  writeBack d (s.readReg s0 * s.readReg s1) s

/-- Unsigned division; a zero divisor panics (R127). -/
def execDiv (d s0 s1 : RegNum) (s : State) : Result :=
  divideBack d (s.readReg s1) (quotient (s.readReg s0) (s.readReg s1)) s

/-- Unsigned remainder; a zero divisor panics (R128). -/
def execRem (d s0 s1 : RegNum) (s : State) : Result :=
  divideBack d (s.readReg s1) (remainder (s.readReg s0) (s.readReg s1)) s

/-- Shift left by the whole of `x[s1]` (R129). -/
def execShl (d s0 s1 : RegNum) (s : State) : Result :=
  writeBack d (shiftLeft (s.readReg s0) (s.readReg s1)) s

/-- Shift right by the whole of `x[s1]` (R130). -/
def execShr (d s0 s1 : RegNum) (s : State) : Result :=
  writeBack d (shiftRight (s.readReg s0) (s.readReg s1)) s

/-- `x[d] <- x[s0] & x[s1]` (R131). -/
def execAnd (d s0 s1 : RegNum) (s : State) : Result :=
  writeBack d (s.readReg s0 &&& s.readReg s1) s

/-- `x[d] <- x[s0] | x[s1]` (R132). -/
def execOr (d s0 s1 : RegNum) (s : State) : Result :=
  writeBack d (s.readReg s0 ||| s.readReg s1) s

/-- `x[d] <- ~x[s0]`; the third field is not read (R133). -/
def execNot (d s0 : RegNum) (s : State) : Result :=
  writeBack d (~~~ s.readReg s0) s

/-- `x[d] <- x[s0] ^ x[s1]` (R134). -/
def execXor (d s0 s1 : RegNum) (s : State) : Result :=
  writeBack d (s.readReg s0 ^^^ s.readReg s1) s

/-- As the register form, with `zext_16(imm)` (R135). -/
def execAddi (d s0 : RegNum) (imm : Byte) (s : State) : Result :=
  writeBack d (s.readReg s0 + zext16 imm) s

/-- As the register form, with `zext_16(imm)` (R136). -/
def execSubi (d s0 : RegNum) (imm : Byte) (s : State) : Result :=
  writeBack d (s.readReg s0 - zext16 imm) s

/-- As the register form, with `zext_16(imm)` (R137). -/
def execMuli (d s0 : RegNum) (imm : Byte) (s : State) : Result :=
  writeBack d (s.readReg s0 * zext16 imm) s

/-- Unsigned division by the immediate; zero panics, whatever `x[s0]` is (R138). -/
def execDivi (d s0 : RegNum) (imm : Byte) (s : State) : Result :=
  divideBack d (zext16 imm) (quotient (s.readReg s0) (zext16 imm)) s

/-- Unsigned remainder by the immediate; zero panics (R139). -/
def execRemi (d s0 : RegNum) (imm : Byte) (s : State) : Result :=
  divideBack d (zext16 imm) (remainder (s.readReg s0) (zext16 imm)) s

/-- Shift left by the immediate, 16 to 255 included (R140). -/
def execShli (d s0 : RegNum) (imm : Byte) (s : State) : Result :=
  writeBack d (shiftLeft (s.readReg s0) (zext16 imm)) s

/-- Shift right by the immediate, 16 to 255 included (R141). -/
def execShri (d s0 : RegNum) (imm : Byte) (s : State) : Result :=
  writeBack d (shiftRight (s.readReg s0) (zext16 imm)) s

end Sys2Proof.Machine
end

