-- ==== Sys2Proof/Machine/Compare.lean ====
section
/-!
DEFINITION. Group 3, compare (R210 to R223): the left-hand side is always `x[s0]`; `TRUE_VALUE` or zero is written to the
whole of `x[d]` (R211).
-/

namespace Sys2Proof.Machine

/-- `x[s0] = x[s1]` (R212). -/
def execEq (d s0 s1 : RegNum) (s : State) : Result :=
  writeBack d (truthValue (s.readReg s0 = s.readReg s1)) s

/-- `x[s0] != x[s1]` (R213). -/
def execNe (d s0 s1 : RegNum) (s : State) : Result :=
  writeBack d (truthValue (s.readReg s0 ≠ s.readReg s1)) s

/-- `x[s0] < x[s1]` (R214). -/
def execLt (d s0 s1 : RegNum) (s : State) : Result :=
  writeBack d (truthValue (ltWord (s.readReg s0) (s.readReg s1))) s

/-- `x[s0] > x[s1]` (R215). -/
def execGt (d s0 s1 : RegNum) (s : State) : Result :=
  writeBack d (truthValue (ltWord (s.readReg s1) (s.readReg s0))) s

/-- `x[s0] <= x[s1]` (R216). -/
def execLe (d s0 s1 : RegNum) (s : State) : Result :=
  writeBack d (truthValue (leWord (s.readReg s0) (s.readReg s1))) s

/-- `x[s0] >= x[s1]` (R217). -/
def execGe (d s0 s1 : RegNum) (s : State) : Result :=
  writeBack d (truthValue (leWord (s.readReg s1) (s.readReg s0))) s

/-- `x[s0] = zext_16(imm)` (R218). -/
def execEqi (d s0 : RegNum) (imm : Byte) (s : State) : Result :=
  writeBack d (truthValue (s.readReg s0 = zext16 imm)) s

/-- `x[s0] != zext_16(imm)` (R219). -/
def execNei (d s0 : RegNum) (imm : Byte) (s : State) : Result :=
  writeBack d (truthValue (s.readReg s0 ≠ zext16 imm)) s

/-- `x[s0] < zext_16(imm)` (R220). -/
def execLti (d s0 : RegNum) (imm : Byte) (s : State) : Result :=
  writeBack d (truthValue (ltWord (s.readReg s0) (zext16 imm))) s

/-- `x[s0] > zext_16(imm)` (R221). -/
def execGti (d s0 : RegNum) (imm : Byte) (s : State) : Result :=
  writeBack d (truthValue (ltWord (zext16 imm) (s.readReg s0))) s

/-- `x[s0] <= zext_16(imm)` (R222). -/
def execLei (d s0 : RegNum) (imm : Byte) (s : State) : Result :=
  writeBack d (truthValue (leWord (s.readReg s0) (zext16 imm))) s

/-- `x[s0] >= zext_16(imm)` (R223). -/
def execGei (d s0 : RegNum) (imm : Byte) (s : State) : Result :=
  writeBack d (truthValue (leWord (zext16 imm) (s.readReg s0))) s

end Sys2Proof.Machine
end

