-- ==== Sys2Proof/Machine/Jump.lean ====
section
/-!
DEFINITION. Group 2, jump (R180 to R200). Predicate and targets are read before the link register is written (R182); targets
are absolute word addresses (R181).
-/

namespace Sys2Proof.Machine

/-- `pc <- target` (R183). -/
def execJ (target : Word) (s : State) : Result :=
  .next (s.jumpTo target)

/-- `x[l] <- link; pc <- target` (R184). -/
def execJl (l : RegNum) (target : Word) (s : State) : Result :=
  .next ((s.writeLink true l).jumpTo target)

/-- `pc <- x[a]` (R185). -/
def execJr (a : RegNum) (s : State) : Result :=
  .next (s.jumpTo (s.readReg a))

/-- `t <- x[a]; x[l] <- link; pc <- t` (R186). -/
def execJrl (l a : RegNum) (s : State) : Result :=
  .next ((s.writeLink true l).jumpTo (s.readReg a))

/-- To `target` if `x[p]` is not zero, else on (R187). -/
def execJt (p : RegNum) (target : Word) (s : State) : Result :=
  .next (s.branch (isTrue (s.readReg p)) target)

/-- To `target` if the implied predicate is not zero, else on; the link is written either way (R188). -/
def execJtl (l : RegNum) (target : Word) (s : State) : Result :=
  let c := isTrue (s.readReg s.predIdx)
  .next ((s.writeLink c l).branch c target)

/-- To `x[a]` if `x[p]` is not zero, else on (R189). -/
def execJrt (p a : RegNum) (s : State) : Result :=
  .next (s.branch (isTrue (s.readReg p)) (s.readReg a))

/-- To `x[a]` if `x[p]` is not zero, else on; the link is written either way (R190). -/
def execJrtl (p a l : RegNum) (s : State) : Result :=
  let c := isTrue (s.readReg p)
  .next ((s.writeLink c l).branch c (s.readReg a))

/-- To `target` if `x[p]` is zero, else on (R191). -/
def execJf (p : RegNum) (target : Word) (s : State) : Result :=
  .next (s.branch (!isTrue (s.readReg p)) target)

/-- To `target` if the implied predicate is zero, else on; the link is written either way (R192). -/
def execJfl (l : RegNum) (target : Word) (s : State) : Result :=
  let c := !isTrue (s.readReg s.predIdx)
  .next ((s.writeLink c l).branch c target)

/-- To `x[a]` if `x[p]` is zero, else on (R193). -/
def execJrf (p a : RegNum) (s : State) : Result :=
  .next (s.branch (!isTrue (s.readReg p)) (s.readReg a))

/-- To `x[a]` if `x[p]` is zero, else on; the link is written either way (R194). -/
def execJrfl (p a l : RegNum) (s : State) : Result :=
  let c := !isTrue (s.readReg p)
  .next ((s.writeLink c l).branch c (s.readReg a))

/-- To `x[t]` if `x[p]` is not zero, else to `x[f]`; never on (R195). -/
def execIft (p t f : RegNum) (s : State) : Result :=
  .next (s.jumpTo (if isTrue (s.readReg p) then s.readReg t else s.readReg f))

/-- To `x[t]` if the implied predicate is not zero, else to `x[f]`, linking on both branches (R197). -/
def execIftl (l t f : RegNum) (s : State) : Result :=
  .next ((s.writeLink true l).jumpTo (if isTrue (s.readReg s.predIdx) then s.readReg t else s.readReg f))

/-- To `x[t]` if `x[p]` is zero, else to `x[f]`; never on (R196). -/
def execIff (p t f : RegNum) (s : State) : Result :=
  .next (s.jumpTo (if !isTrue (s.readReg p) then s.readReg t else s.readReg f))

/-- To `x[t]` if the implied predicate is zero, else to `x[f]`, linking on both branches (R198). -/
def execIffl (l t f : RegNum) (s : State) : Result :=
  .next ((s.writeLink true l).jumpTo (if !isTrue (s.readReg s.predIdx) then s.readReg t else s.readReg f))

end Sys2Proof.Machine
end

