-- ==== Sys2Proof/Machine/Misc.lean ====
section
/-!
DEFINITION. Group 4, misc: the system call and the implicit registers (R230 to R240).
-/

namespace Sys2Proof.Machine

/-- System operation 1: `status <- Halted`; nothing else changes, `pc` included (R232). -/
def systemHalt  (s : State) : Result :=
  .next (s.setStatus .halted)

/-- System operation 2: the next input byte, zero-extended, to `x[ra]` (R233). At the end of the input `x[ra]` is an
open value, a draw (`GETC_EOF`, D26; log 6). While the stream is open and empty no step is made (log 7). -/
def systemGetc (ra : RegNum) (s : State) : Result :=
  match s.stdin.pending with
  | c :: rest => writeBack ra (zext16 c) (s.setStdin { s.stdin with pending := rest })
  | [] =>
    if s.stdin.closed then writeBack ra (Config.getcEof s.draws) s.countDraw
    else .fault .awaitingInput

/-- System operation 3: the low byte of `x[ra]` to the output (R234). -/
def systemPutc (ra : RegNum) (s : State) : Result :=
  .next (s.output (lowByte (s.readReg ra))).advance

/-- The system call: dispatch on the immediate index `n` (R231). The second register argument is ignored by every
operation (R231); index 0 and 5 to 255 are undefined and panic (R235). -/
def execSystem (n : Byte) (ra _rb : RegNum) (s : State) : Result :=
  if n = 1 then systemHalt s
  else if n = 2 then systemGetc ra s
  else if n = 3 then systemPutc ra s
  else if n = 4 then panic .requested s
  else panic .undefinedSystemOperation s

/-- `impl[k] <- x[r][7:0]`: the register's content, not its number (R236). -/
def execImplicitSet (k : ImplNum) (r : RegNum) (s : State) : Result :=
  .next (s.writeImpl k (lowByte (s.readReg r))).advance

/-- `impl[x[ri][7:0]] <- x[r][7:0]` (R237). -/
def execImplicitIndirectSet (ri r : RegNum) (s : State) : Result :=
  .next (s.writeImpl (lowByte (s.readReg ri)) (lowByte (s.readReg r))).advance

/-- `x[d] <- zext_16(impl[k])` (R238). -/
def execImplicitGet (d : RegNum) (k : ImplNum) (s : State) : Result :=
  writeBack d (zext16 (s.readImpl k)) s

/-- `x[d] <- zext_16(impl[x[ri][7:0]])` (R239). -/
def execImplicitIndirectGet (d ri : RegNum) (s : State) : Result :=
  writeBack d (zext16 (s.readImpl (lowByte (s.readReg ri)))) s

end Sys2Proof.Machine
end

