-- ==== Sys2Proof/Machine/Move.lean ====
section
/-!
DEFINITION. Group 1, move: register moves, loads, stores, stack (R150 to R163). No instruction of the group panics.
-/

namespace Sys2Proof.Machine

/-- `x[d] <- x[s]` (R151). -/
def execMove (d r : RegNum) (s : State) : Result :=
  writeBack d (s.readReg r) s

/-- `t <- x[d]; u <- x[s]; x[d] <- u; x[s] <- t` (R152). -/
def execSwap (d r : RegNum) (s : State) : Result :=
  .next ((s.writeReg d (s.readReg r)).writeReg r (s.readReg d)).advance

/-- `x[d] <- imm`, all 16 bits (R153). -/
def execSet (d : RegNum) (imm : Word) (s : State) : Result :=
  writeBack d imm s

/-- `x[d] <- MemRead(DATA, x[a], 16)` (R154). -/
def execLd (d a : RegNum) (s : State) : Result :=
  writeBack d (s.readData (s.readReg a)) s

/-- `x[d] <- MemRead(DATA, addr, 16)` (R155). -/
def execLdi (d : RegNum) (addr : Word) (s : State) : Result :=
  writeBack d (s.readData addr) s

/-- `v <- MemRead(CODE, x[a], 32); x[lo] <- v[15:0]; x[hi] <- v[31:16]`; with `lo` = `hi` the second write wins (R156). -/
def execLdc (a lo hi : RegNum) (s : State) : Result :=
  let v := s.readCode (s.readReg a)
  .next ((s.writeReg lo (lowerHalf v)).writeReg hi (upperHalf v)).advance

/-- `MemWrite(DATA, x[a], 16, x[r])` (R157). -/
def execSt (a r : RegNum) (s : State) : Result :=
  .next (s.writeData (s.readReg a) (s.readReg r)).advance

/-- `MemWrite(CODE, x[a], 32, x[hi] ++ x[lo])` (R158); the next fetch sees it (R63). -/
def execStc (a lo hi : RegNum) (s : State) : Result :=
  .next (s.writeCode (s.readReg a) (joinHalves (s.readReg hi) (s.readReg lo))).advance

/-- `MemWrite(DATA, x[a], 16, imm)`, one word (R159). -/
def execMemset (a : RegNum) (imm : Word) (s : State) : Result :=
  .next (s.writeData (s.readReg a) imm).advance

/-- Push of a register; pushing the stack pointer itself stores its old value (R160). -/
def execPush (r : RegNum) (s : State) : Result :=
  pushWord (s.readReg r) s

/-- Push of an immediate (R161). -/
def execPushi (imm : Word) (s : State) : Result :=
  pushWord imm s

/-- `a <- x[sp]; x[d] <- MemRead(STACK, a, 16); x[sp] <- trunc16(a + 65535)`: the pointer update is last, so a pop into
the stack pointer loses the popped word (R162). -/
def execPop (d : RegNum) (s : State) : Result :=
  let a := s.readReg s.spIdx
  .next ((s.writeReg d (s.readStack a)).writeReg s.spIdx (a - config.stackPushDelta)).advance

end Sys2Proof.Machine
end

