-- ==== Sys2Proof/Machine/Dispatch.lean ====
section
/-!
DEFINITION. The dispatch: one arm per constructor of `Instr`, each one call of that instruction's meaning.
-/

namespace Sys2Proof.Machine

def exec (i : Instr) (s : State) : Host.Outcome State Fault Refusal :=
  match i with
  | .add d s0 s1 => Sys2Proof.Machine.execAdd d s0 s1 s
  | .sub d s0 s1 => Sys2Proof.Machine.execSub d s0 s1 s
  | .mul d s0 s1 => Sys2Proof.Machine.execMul d s0 s1 s
  | .div d s0 s1 => Sys2Proof.Machine.execDiv d s0 s1 s
  | .rem d s0 s1 => Sys2Proof.Machine.execRem d s0 s1 s
  | .shl d s0 s1 => Sys2Proof.Machine.execShl d s0 s1 s
  | .shr d s0 s1 => Sys2Proof.Machine.execShr d s0 s1 s
  | .and d s0 s1 => Sys2Proof.Machine.execAnd d s0 s1 s
  | .or d s0 s1 => Sys2Proof.Machine.execOr d s0 s1 s
  | .not d s0 => Sys2Proof.Machine.execNot d s0 s
  | .xor d s0 s1 => Sys2Proof.Machine.execXor d s0 s1 s
  | .addi d s0 imm => Sys2Proof.Machine.execAddi d s0 imm s
  | .subi d s0 imm => Sys2Proof.Machine.execSubi d s0 imm s
  | .muli d s0 imm => Sys2Proof.Machine.execMuli d s0 imm s
  | .divi d s0 imm => Sys2Proof.Machine.execDivi d s0 imm s
  | .remi d s0 imm => Sys2Proof.Machine.execRemi d s0 imm s
  | .shli d s0 imm => Sys2Proof.Machine.execShli d s0 imm s
  | .shri d s0 imm => Sys2Proof.Machine.execShri d s0 imm s
  | .move d r => Sys2Proof.Machine.execMove d r s
  | .swap d r => Sys2Proof.Machine.execSwap d r s
  | .set d imm => Sys2Proof.Machine.execSet d imm s
  | .ld d a => Sys2Proof.Machine.execLd d a s
  | .ldi d addr => Sys2Proof.Machine.execLdi d addr s
  | .ldc a lo hi => Sys2Proof.Machine.execLdc a lo hi s
  | .st a r => Sys2Proof.Machine.execSt a r s
  | .stc a lo hi => Sys2Proof.Machine.execStc a lo hi s
  | .memset a imm => Sys2Proof.Machine.execMemset a imm s
  | .push r => Sys2Proof.Machine.execPush r s
  | .pushi imm => Sys2Proof.Machine.execPushi imm s
  | .pop d => Sys2Proof.Machine.execPop d s
  | .j target => Sys2Proof.Machine.execJ target s
  | .jl l target => Sys2Proof.Machine.execJl l target s
  | .jr a => Sys2Proof.Machine.execJr a s
  | .jrl l a => Sys2Proof.Machine.execJrl l a s
  | .jt p target => Sys2Proof.Machine.execJt p target s
  | .jtl l target => Sys2Proof.Machine.execJtl l target s
  | .jrt p a => Sys2Proof.Machine.execJrt p a s
  | .jrtl p a l => Sys2Proof.Machine.execJrtl p a l s
  | .jf p target => Sys2Proof.Machine.execJf p target s
  | .jfl l target => Sys2Proof.Machine.execJfl l target s
  | .jrf p a => Sys2Proof.Machine.execJrf p a s
  | .jrfl p a l => Sys2Proof.Machine.execJrfl p a l s
  | .ift p t f => Sys2Proof.Machine.execIft p t f s
  | .iff p t f => Sys2Proof.Machine.execIff p t f s
  | .iftl l t f => Sys2Proof.Machine.execIftl l t f s
  | .iffl l t f => Sys2Proof.Machine.execIffl l t f s
  | .eq d s0 s1 => Sys2Proof.Machine.execEq d s0 s1 s
  | .ne d s0 s1 => Sys2Proof.Machine.execNe d s0 s1 s
  | .lt d s0 s1 => Sys2Proof.Machine.execLt d s0 s1 s
  | .gt d s0 s1 => Sys2Proof.Machine.execGt d s0 s1 s
  | .le d s0 s1 => Sys2Proof.Machine.execLe d s0 s1 s
  | .ge d s0 s1 => Sys2Proof.Machine.execGe d s0 s1 s
  | .eqi d s0 imm => Sys2Proof.Machine.execEqi d s0 imm s
  | .nei d s0 imm => Sys2Proof.Machine.execNei d s0 imm s
  | .lti d s0 imm => Sys2Proof.Machine.execLti d s0 imm s
  | .gti d s0 imm => Sys2Proof.Machine.execGti d s0 imm s
  | .lei d s0 imm => Sys2Proof.Machine.execLei d s0 imm s
  | .gei d s0 imm => Sys2Proof.Machine.execGei d s0 imm s
  | .system n ra rb => Sys2Proof.Machine.execSystem n ra rb s
  | .implicitSet k r => Sys2Proof.Machine.execImplicitSet k r s
  | .implicitIndirectSet ri r => Sys2Proof.Machine.execImplicitIndirectSet ri r s
  | .implicitGet d k => Sys2Proof.Machine.execImplicitGet d k s
  | .implicitIndirectGet d ri => Sys2Proof.Machine.execImplicitIndirectGet d ri s

end Sys2Proof.Machine
end

