-- ==== Sys2Proof/Machine/Step.lean ====
section
/-!
DEFINITION. One step (R11).
-/

namespace Sys2Proof.Machine

/-- One step (R11): while the status is `Running`, fetch the word at `pc`, decode it, and perform its instruction, or
take the panic of its undefined encoding (R96 to R98). A machine that is not running makes no step (R32). Every
meaning moves the program counter itself. -/
def step (s : State) : Host.Outcome State Fault Refusal :=
  match s.status.stopped with
  | some f => .fault f
  | none =>
    match decode s.fetch with
    | .undefined r => panic r s
    | .instr i => exec i s

/-- The state with that instruction stored where `step` fetches its next one: in code memory at `pc`. It stands for
the load of one word by the host (R268, log 35). -/
def State.withFetchWord (s : State) (nbits w : Nat) : State := s.placeFetchWord nbits w

end Sys2Proof.Machine
end

