-- ==== Sys2Proof/Machine/Assembly.lean ====
section
/-!
DEFINITION. The assembler of the documented syntax (R84, R104 to R106): a well-formed line becomes its word, each
operand put in its slot and zero in the unused fields (R82, R100). It is written from the slots of the formats, apart
from `encode`, which is written instruction by instruction.
-/

namespace Sys2Proof.Machine

/-- The weight of the lowest bit of a slot (R81). -/
def slotWeight : Slot → Nat
  | .reg1 | .imm1 => 2 ^ 8
  | .reg2 | .imm2 | .imm16 => 2 ^ 16
  | .reg3 | .imm3 => 2 ^ 24

/-- The number an operand stands for; negative numbers are never assembled (R84). -/
def operandValue : AsmOperand → Nat
  | .reg n => n
  | .imm n => n.toNat

/-- The operands put in their slots. -/
def placeOperands : List Slot → List AsmOperand → Nat
  | sl :: sls, o :: os => operandValue o * slotWeight sl + placeOperands sls os
  | _, _ => 0

/-- The word of an assembly line; `none` where the line is not well formed, an assembler error (R84). -/
def assemble (l : AsmLine) : Option CodeWord :=
  if l.wellFormed then
    (Op.ofMnemonic l.mnemonic).map fun o => BitVec.ofNat 32 (o.byte0.toNat + placeOperands o.slots l.operands)
  else none

end Sys2Proof.Machine
end

