-- ==== Sys2Proof/Machine/Environment.lean ====
section
/-!
DEFINITION. What the host does to the machine outside a step (R268): load before a run, supply or close the input
stream. Start is `State.launch`; getc, putc, halt and panic are instructions. No step takes any of these.
-/

namespace Sys2Proof.Machine

/-- Load: code words placed from address `a` up (R268, R283). DESIGN CHOICE: a load that runs past 0xFFFF goes on at
0, log 35 (unsafe). -/
def State.loadCode (s : State) (a : Word) : List CodeWord → State
  | [] => s
  | w :: ws => State.loadCode (s.writeCode a w) (a + 1) ws

/-- Load: data words placed from address `a` up (R268). DESIGN CHOICE: past 0xFFFF as `loadCode`, log 35 (unsafe). -/
def State.loadData (s : State) (a : Word) : List Word → State
  | [] => s
  | v :: vs => State.loadData (s.writeData a v) (a + 1) vs

/-- The code words of a byte image, four bytes a word, least significant first (R57); a last incomplete word is
dropped (DESIGN CHOICE, log 35). -/
def imageWords : List Byte → List CodeWord
  | c0 :: c1 :: c2 :: c3 :: rest => packWord c0 c1 c2 c3 :: imageWords rest
  | _ => []

/-- Load of a byte image of a program at `RESET_PC`, where the program's entry must be (R283). DESIGN CHOICE: the image
is flat, code words and nothing else, and its first word is the entry; the spec gives an image no format but the byte
order of a word (R57). Log 35 (unsafe). -/
def State.loadImage (s : State) (bytes : List Byte) : State := s.loadCode config.resetPc (imageWords bytes)

/-- The host supplies bytes on an open input stream; a closed one stays at its end (R33, R233). -/
def State.supplyInput (s : State) (bytes : List Byte) : State :=
  if s.stdin.closed then s else s.setStdin { s.stdin with pending := s.stdin.pending ++ bytes }

/-- The host closes the input stream: no byte follows those pending (R233). -/
def State.closeInput (s : State) : State := s.setStdin { s.stdin with closed := true }

end Sys2Proof.Machine
end

