-- ==== Sys2Proof/Safety.lean ====
section
/-!
DEFINITION. The terms claims are stated in: what a safe run is, what the invariant of the state is, what an
instruction leaves unchanged, and the spec's own table of the causes of a panic.
-/

namespace Sys2Proof.Machine

/-! ### Runs -/

/-- `t` is the state after some number of steps from `s`. -/
def Reaches (s t : State) : Prop := ∃ n, Sys2Proof.core.run n s = .next t

/-- A safe run: no reached state is panicked (R252: a panicked state is never a correct end of a run). -/
def NeverPanics (s : State) : Prop := ∀ t, Reaches s t → ∀ r, t.status ≠ .panicked r

/-- The only normal end of a run (R32, R232). -/
def HaltsIn (s t : State) : Prop := Reaches s t ∧ t.status = .halted

/-! ### The invariant -/

/-- All three memories are in canonical form: addresses strictly rising, below 65536, no entry that an unlisted
address would read as. -/
def State.wf (s : State) : Bool := Mem.wf s.code && Mem.wf s.data && Mem.wf s.stack

/-! ### What an instruction leaves unchanged -/

/-- What may change besides the program counter; whatever is not named stays. -/
structure Footprint where
  regs : List RegNum := []
  impl : List ImplNum := []
  code : List Word := []
  data : List Word := []
  stack : List Word := []
  status : Bool := false
  stdin : Bool := false
  stdout : Bool := false
  draws : Bool := false
deriving DecidableEq, Repr

/-- `t` differs from `s` at most in the program counter and in what `f` names: every other general register, implicit
register and word of the three memories reads as before, and so do the status and the streams. -/
structure ChangesOnly (f : Footprint) (s t : State) : Prop where
  regs : ∀ r, r ∉ f.regs → t.readReg r = s.readReg r
  impl : ∀ k, k ∉ f.impl → t.readImpl k = s.readImpl k
  code : ∀ a, a ∉ f.code → t.readCode a = s.readCode a
  data : ∀ a, a ∉ f.data → t.readData a = s.readData a
  stack : ∀ a, a ∉ f.stack → t.readStack a = s.readStack a
  status : f.status = false → t.status = s.status
  stdin : f.stdin = false → t.stdin = s.stdin
  stdout : f.stdout = false → t.stdout = s.stdout
  draws : f.draws = false → t.draws = s.draws

/-- What each instruction may change, from the "written by" column of R20, the destinations of R90 and the links of
R199. A panic changes the status (R252). -/
def footprint (i : Instr) (s : State) : Footprint :=
  match i with
  | .add d _ _ | .sub d _ _ | .mul d _ _ | .shl d _ _ | .shr d _ _ | .and d _ _ | .or d _ _ | .not d _ | .xor d _ _ =>
    { regs := [d] }
  | .addi d _ _ | .subi d _ _ | .muli d _ _ | .shli d _ _ | .shri d _ _ => { regs := [d] }
  | .div d _ _ | .rem d _ _ => { regs := [d], status := true }
  | .divi d _ _ | .remi d _ _ => { regs := [d], status := true }
  | .move d _ | .set d _ | .ld d _ | .ldi d _ => { regs := [d] }
  | .swap d r => { regs := [d, r] }
  | .ldc _ lo hi => { regs := [lo, hi] }
  | .st a _ | .memset a _ => { data := [s.readReg a] }
  | .stc a _ _ => { code := [s.readReg a] }
  | .push _ | .pushi _ => { regs := [s.readImpl 1], stack := [s.readReg (s.readImpl 1) + 1] }
  | .pop d => { regs := [d, s.readImpl 1] }
  | .j _ | .jr _ | .jt _ _ | .jrt _ _ | .jf _ _ | .jrf _ _ | .ift _ _ _ | .iff _ _ _ => {}
  | .jl l _ | .jrl l _ | .jtl l _ | .jrtl _ _ l | .jfl l _ | .jrfl _ _ l | .iftl l _ _ | .iffl l _ _ => { regs := [l] }
  | .eq d _ _ | .ne d _ _ | .lt d _ _ | .gt d _ _ | .le d _ _ | .ge d _ _ => { regs := [d] }
  | .eqi d _ _ | .nei d _ _ | .lti d _ _ | .gti d _ _ | .lei d _ _ | .gei d _ _ => { regs := [d] }
  | .system n ra _ =>
    if n = 2 then { regs := [ra], stdin := true, draws := true }
    else if n = 3 then { stdout := true }
    else { status := true }
  | .implicitSet k _ => { impl := [k] }
  | .implicitIndirectSet ri _ => { impl := [(s.readReg ri).setWidth 8] }
  | .implicitGet d _ | .implicitIndirectGet d _ => { regs := [d] }

/-- The sixteen jumps, the only instructions that assign `pc` themselves while the machine keeps running (R26, R180). -/
def isJump (i : Instr) : Bool := i.op.group = 2

/-! ### Shapes of a claim about one instruction -/

/-- `exec` of `i` at `s` answers a next state, and that state satisfies `P`. -/
def Completes (i : Instr) (s : State) (P : State → Prop) : Prop := ∃ t, exec i s = .next t ∧ P t

/-- `pc <- trunc16(pc + 1)` (R26). -/
def Advanced (s t : State) : Prop := t.pc.toNat = (s.pc.toNat + 1) % 65536

/-- `i` completes at `s` with the number `v` in register `d`, the next instruction next, and nothing else changed. -/
def WritesReg (i : Instr) (s : State) (d : RegNum) (v : Nat) : Prop :=
  Completes i s fun t => (t.readReg d).toNat = v ∧ Advanced s t ∧ ChangesOnly { regs := [d] } s t

/-- Every word whose byte 0 is `b` decodes to the instruction `mk` makes of its fields `b1`, `b2`, `b3`. -/
def SelectedBy (b : Byte) (mk : Byte → Byte → Byte → Instr) : Prop :=
  ∀ w : CodeWord, w.toNat % 256 = b.toNat →
    decode w = .instr (mk (BitVec.ofNat 8 (w.toNat / 256)) (BitVec.ofNat 8 (w.toNat / 65536))
      (BitVec.ofNat 8 (w.toNat / 16777216)))

/-- R251 as a table: the panic the machine takes at `s`, read off the bits of the fetched word (`grp` = w mod 8, `op`
= w / 8 mod 32, the fields above them) and the divisor register, group first, then operation, then the
instruction's own cause (R256). It is written apart from the decoder. -/
def panicCause (s : State) : Option PanicReason :=
  let w := s.fetch.toNat
  let grp := w % 8
  let op := w / 8 % 32
  let f1 := w / 256 % 256
  let f3 := w / 16777216
  if grp ≥ 5 then some .undefinedGroup
  else if grp = 0 ∧ op ≥ 18 ∨ grp = 1 ∧ op ≥ 12 ∨ grp = 2 ∧ op ≥ 16 ∨ grp = 3 ∧ op ≥ 12 ∨ grp = 4 ∧ op ≥ 5 then
    some .undefinedOperation
  else if grp = 0 ∧ (op = 3 ∨ op = 4) ∧ s.readReg (BitVec.ofNat 8 f3) = 0 then some .divideByZero
  else if grp = 0 ∧ (op = 14 ∨ op = 15) ∧ f3 = 0 then some .divideByZero
  else if grp = 4 ∧ op = 0 ∧ f1 = 4 then some .requested
  else if grp = 4 ∧ op = 0 ∧ (f1 = 0 ∨ f1 ≥ 5) then some .undefinedSystemOperation
  else none

end Sys2Proof.Machine
end

