-- ==== Sys2Proof/Certificates/Slice0/Obligations.lean ====
section
/-!
DEFINITION. The statements for the provers. Each docstring says which rules of the spec it formalises; where a
statement rests on a decision the spec marks as its own (92_eei_decisions.md D<n>) or on a choice of the model (log n),
the docstring says so.
-/

open Sys2Proof Sys2Proof.Machine

/-! ### Encoding and assembly -/

/-- R81, R82, R90: decoding the word of an instruction gives the instruction back, every operand at every value.
Rests on the operation numbers of decisions D2 to D4. -/
def Obligations.DecodeOfEncode : Prop := ∀ i : Instr, decode (encode i) = .instr i

/-- R82, R100 (D6): the other direction. A word that decodes to an instruction is that instruction's word but for its
unused fields, which `encode` writes as zero. So no two instructions share a word, and no bit of a used field is dropped. -/
def Obligations.EncodeOfDecode : Prop :=
  ∀ (w : CodeWord) (i : Instr), decode w = .instr i → encode i = w &&& i.op.usedMask

/-- R88: byte 0 alone selects the instruction. Two words with the same byte 0 decode to the same operation or are
undefined for the same reason, and byte 0 of a defined word is `op * 8 + grp`. -/
def Obligations.SelectedByByteZeroAlone : Prop :=
  (∀ (w w' : CodeWord), w.toNat % 256 = w'.toNat % 256 →
    (∃ i i', decode w = .instr i ∧ decode w' = .instr i' ∧ i.op = i'.op) ∨
    (∃ r, decode w = .undefined r ∧ decode w' = .undefined r)) ∧
  (∀ (w : CodeWord) (i : Instr), decode w = .instr i →
    w.toNat % 256 = i.op.number * 8 + i.op.group ∧ i.op.number < 32 ∧ i.op.group < 8)

/-- R82, R100, R133 (D6): the decoder does not look at unused fields, whatever they hold, and the encoder writes them
as zero; `b3` of `not` is such a field. -/
def Obligations.UnusedFieldsAreIgnored : Prop :=
  (∀ (w w' : CodeWord) (i : Instr), decode w = .instr i →
    w &&& i.op.usedMask = w' &&& i.op.usedMask → decode w' = .instr i) ∧
  (∀ i : Instr, encode i &&& ~~~ i.op.usedMask = 0) ∧
  Op.usedMask .not = 0x00FFFFFF

/-- R90, R91: byte 0 of each of the 63 operations as the opcode map prints it, and exactly 63 of the 256 values of
byte 0 are defined. The numbers of the move, jump and compare groups are decisions D2 to D4 (log 11), the place of
byte 0 in the word D1 (log 10). -/
def Obligations.OpcodeMapAsPrinted : Prop :=
  Op.all.map (fun o => o.byte0.toNat) =
    [0x00, 0x08, 0x10, 0x18, 0x20, 0x28, 0x30, 0x38, 0x40, 0x48, 0x50, 0x58, 0x60, 0x68, 0x70, 0x78, 0x80, 0x88,
     0x01, 0x09, 0x11, 0x19, 0x21, 0x29, 0x31, 0x39, 0x41, 0x49, 0x51, 0x59,
     0x02, 0x0A, 0x12, 0x1A, 0x22, 0x2A, 0x32, 0x3A, 0x42, 0x4A, 0x52, 0x5A, 0x62, 0x6A, 0x72, 0x7A,
     0x03, 0x0B, 0x13, 0x1B, 0x23, 0x2B, 0x33, 0x3B, 0x43, 0x4B, 0x53, 0x5B,
     0x04, 0x0C, 0x14, 0x1C, 0x24] ∧
  ((List.range 256).filter fun n => (decodeTableWord 32 n).isSome).length = 63

/-- Words the spec writes out (95_test_vectors.md S2, A1, E12, M5, M16, J16, Q7, X1, X15), one or more of each group,
decode to the instructions they stand for. All rest on the bit order of decision D1 (log 10), those of groups 1 to 3 on
the operation numbers of D2 to D4 (log 11), the `stc` word on the operand fields of D22 (log 25), the `eqi` word on the
immediate's field of D16 (log 20), and the `not` word, whose third field is 0xAB, on unused fields being ignored, D6
(log 13). -/
def Obligations.WordsWrittenOutDecode : Prop :=
  decode 0x01010060 = .instr (.subi 0 1 1) ∧ decode 0x02010300 = .instr (.add 3 1 2) ∧
  decode 0xAB010348 = .instr (.not 3 1) ∧ decode 0x12340511 = .instr (.set 5 0x1234) ∧
  decode 0x03020139 = .instr (.stc 1 2 3) ∧ decode 0x0A0B043A = .instr (.jrtl 4 11 10) ∧
  decode 0xC8010433 = .instr (.eqi 4 1 200) ∧ decode 0x00000104 = .instr (.system 1 0 0) ∧
  decode 0x00060714 = .instr (.implicitIndirectSet 7 6)

/-- R104, R105 (D33, D34): every instruction is well formed as it is written, and assembling what is written gives its
word. The assembler is written from the slots of the formats, the encoder instruction by instruction. The words rest on
decisions D1 to D4, D16 and D21 (logs 10, 11, 20). -/
def Obligations.AssemblerAgreesWithEncoder : Prop :=
  ∀ i : Instr, i.wellFormed = true ∧ assemble i.asm = some (encode i)

/-- R84, R104, R106 (D33, D37): the assembler makes a word of exactly the well-formed lines, and that word decodes to
an instruction of the named operation with the operands written, whatever the line. `ldm` names `ldi`; `addi r0 r1 -1`
is not assembled and `subi r0 r1 1` is 0x01010060. -/
def Obligations.AssembledLinesDecodeAsWritten : Prop :=
  (∀ l : AsmLine, (assemble l).isSome = l.wellFormed) ∧
  (∀ (l : AsmLine) (w : CodeWord), assemble l = some w →
    ∃ i, decode w = .instr i ∧ Op.ofMnemonic l.mnemonic = some i.op ∧ i.operands = l.operands) ∧
  Op.ofMnemonic "ldm" = some .ldi ∧
  assemble ⟨"addi", [.reg 0, .reg 1, .imm (-1)]⟩ = none ∧
  assemble ⟨"subi", [.reg 0, .reg 1, .imm 1]⟩ = some 0x01010060

/-- R57 (D31): the four bytes of an instruction, byte 0 first, decode to it, and the bytes after it are left; the
bytes are those of the word, least significant first. -/
def Obligations.ImageBytesDecode : Prop :=
  ∀ (i : Instr) (rest : List Byte),
    decodeBytes (encodeBytes i ++ rest) = some (.instr i, rest) ∧
    (encodeBytes i).map BitVec.toNat =
      [(encode i).toNat % 256, (encode i).toNat / 256 % 256, (encode i).toNat / 65536 % 256,
       (encode i).toNat / 16777216]

/-- R96, R97: every word with group 5 to 7, whatever its other bits, and every arithmetic word with operation 18 to 31
is undefined, and a running machine that fetches one takes its panic. That taking it is a step to a next state with the
status panicked is R252 (decision D27) as the model reads it, log 9. -/
def Obligations.UndefinedGroupsAndArithmeticPanic : Prop :=
  (∀ w : CodeWord, w.toNat % 8 ≥ 5 → decode w = .undefined .undefinedGroup) ∧
  (∀ w : CodeWord, w.toNat % 8 = 0 → w.toNat / 8 % 32 ≥ 18 → decode w = .undefined .undefinedOperation) ∧
  (∀ s : State, s.status = .running → s.fetch.toNat % 8 ≥ 5 →
    ∃ t, step s = .next t ∧ t.status = .panicked .undefinedGroup) ∧
  (∀ s : State, s.status = .running → s.fetch.toNat % 8 = 0 → s.fetch.toNat / 8 % 32 ≥ 18 →
    ∃ t, step s = .next t ∧ t.status = .panicked .undefinedOperation)

/-- R98 (decision D5): the unlisted operations of groups 1 to 4 panic too. -/
def Obligations.UndefinedOperationsPanic : Prop :=
  ∀ s : State, s.status = .running →
    (s.fetch.toNat % 8 = 1 ∧ s.fetch.toNat / 8 % 32 ≥ 12 ∨ s.fetch.toNat % 8 = 2 ∧ s.fetch.toNat / 8 % 32 ≥ 16 ∨
     s.fetch.toNat % 8 = 3 ∧ s.fetch.toNat / 8 % 32 ≥ 12 ∨ s.fetch.toNat % 8 = 4 ∧ s.fetch.toNat / 8 % 32 ≥ 5) →
    step s = .next { s with status := .panicked .undefinedOperation }

/-! ### Group 0, arithmetic -/

/-- R124, R125, R126: `add`, `sub`, `mul` complete in every state, write the result modulo 65536 and nothing else, for
every choice of registers, equal ones included; their encodings. -/
def Obligations.AddSubMulRegisters : Prop :=
  SelectedBy 0x00 (fun d a b => .add d a b) ∧ SelectedBy 0x08 (fun d a b => .sub d a b) ∧
  SelectedBy 0x10 (fun d a b => .mul d a b) ∧
  ∀ (s : State) (d a b : RegNum),
    WritesReg (.add d a b) s d (((s.readReg a).toNat + (s.readReg b).toNat) % 65536) ∧
    WritesReg (.sub d a b) s d (((s.readReg a).toNat + 65536 - (s.readReg b).toNat) % 65536) ∧
    WritesReg (.mul d a b) s d (((s.readReg a).toNat * (s.readReg b).toNat) % 65536)

/-- R135, R136, R137: `addi`, `subi`, `muli`, the immediate zero-extended. -/
def Obligations.AddSubMulImmediates : Prop :=
  SelectedBy 0x58 (fun d a n => .addi d a n) ∧ SelectedBy 0x60 (fun d a n => .subi d a n) ∧
  SelectedBy 0x68 (fun d a n => .muli d a n) ∧
  ∀ (s : State) (d a : RegNum) (n : Byte),
    WritesReg (.addi d a n) s d (((s.readReg a).toNat + n.toNat) % 65536) ∧
    WritesReg (.subi d a n) s d (((s.readReg a).toNat + 65536 - n.toNat) % 65536) ∧
    WritesReg (.muli d a n) s d (((s.readReg a).toNat * n.toNat) % 65536)

/-- R131 to R134: `and`, `or`, `not`, `xor`, bit by bit over the 16 bits; the third field of `not` has no influence. -/
def Obligations.BitwiseOperations : Prop :=
  SelectedBy 0x38 (fun d a b => .and d a b) ∧ SelectedBy 0x40 (fun d a b => .or d a b) ∧
  SelectedBy 0x48 (fun d a _ => .not d a) ∧ SelectedBy 0x50 (fun d a b => .xor d a b) ∧
  ∀ (s : State) (d a b : RegNum),
    Completes (.and d a b) s (fun t => Advanced s t ∧ ChangesOnly { regs := [d] } s t ∧
      ∀ k < 16, (t.readReg d).getLsbD k = ((s.readReg a).getLsbD k && (s.readReg b).getLsbD k)) ∧
    Completes (.or d a b) s (fun t => Advanced s t ∧ ChangesOnly { regs := [d] } s t ∧
      ∀ k < 16, (t.readReg d).getLsbD k = ((s.readReg a).getLsbD k || (s.readReg b).getLsbD k)) ∧
    Completes (.not d a) s (fun t => Advanced s t ∧ ChangesOnly { regs := [d] } s t ∧
      ∀ k < 16, (t.readReg d).getLsbD k = !(s.readReg a).getLsbD k) ∧
    Completes (.xor d a b) s (fun t => Advanced s t ∧ ChangesOnly { regs := [d] } s t ∧
      ∀ k < 16, (t.readReg d).getLsbD k = ((s.readReg a).getLsbD k ^^ (s.readReg b).getLsbD k))

/-- R127, R128, R138, R139: with a divisor that is not zero, unsigned floor division and remainder (unsigned: decision
D12). -/
def Obligations.DivideByNonzero : Prop :=
  ∀ (s : State) (d a : RegNum),
    (∀ b : RegNum, s.readReg b ≠ 0 →
      WritesReg (.div d a b) s d ((s.readReg a).toNat / (s.readReg b).toNat) ∧
      WritesReg (.rem d a b) s d ((s.readReg a).toNat % (s.readReg b).toNat)) ∧
    (∀ n : Byte, n ≠ 0 →
      WritesReg (.divi d a n) s d ((s.readReg a).toNat / n.toNat) ∧
      WritesReg (.remi d a n) s d ((s.readReg a).toNat % n.toNat))

/-- R127, R128, R138, R139, R252 (decisions D13, D27): a zero divisor panics, and the panic changes the status alone. -/
def Obligations.DivideByZeroPanics : Prop :=
  ∀ (s : State) (d a : RegNum),
    (∀ b : RegNum, s.readReg b = 0 →
      exec (.div d a b) s = .next { s with status := .panicked .divideByZero } ∧
      exec (.rem d a b) s = .next { s with status := .panicked .divideByZero }) ∧
    exec (.divi d a 0) s = .next { s with status := .panicked .divideByZero } ∧
    exec (.remi d a 0) s = .next { s with status := .panicked .divideByZero }

/-- R129, R130, R140, R141, R142 (decisions D12, D14): a shift left is `(a * 2^n) mod 65536` and a shift right
`floor(a / 2^n)` for every count, so a count of 16 or more gives 0; the count is never reduced. -/
def Obligations.ShiftsByAnyCount : Prop :=
  ∀ (s : State) (d a : RegNum),
    (∀ b : RegNum,
      WritesReg (.shl d a b) s d (((s.readReg a).toNat * 2 ^ (s.readReg b).toNat) % 65536) ∧
      WritesReg (.shr d a b) s d ((s.readReg a).toNat / 2 ^ (s.readReg b).toNat)) ∧
    (∀ n : Byte,
      WritesReg (.shli d a n) s d (((s.readReg a).toNat * 2 ^ n.toNat) % 65536) ∧
      WritesReg (.shri d a n) s d ((s.readReg a).toNat / 2 ^ n.toNat))

/-! ### Group 1, move -/

/-- R151, R152, R153 (reads before writes: decision D19): register moves; a swap of a register with itself changes
nothing. -/
def Obligations.RegisterMoves : Prop :=
  ∀ (s : State) (d : RegNum),
    (∀ r : RegNum, WritesReg (.move d r) s d (s.readReg r).toNat) ∧
    (∀ v : Word, WritesReg (.set d v) s d v.toNat) ∧
    (∀ r : RegNum, Completes (.swap d r) s fun t =>
      t.readReg d = s.readReg r ∧ t.readReg r = s.readReg d ∧ Advanced s t ∧ ChangesOnly { regs := [d, r] } s t)

/-- R154, R155: loads read the data domain, at the whole content of the address register or at the immediate. -/
def Obligations.LoadsFromData : Prop :=
  ∀ (s : State) (d : RegNum),
    (∀ a : RegNum, WritesReg (.ld d a) s d (s.readData (s.readReg a)).toNat) ∧
    (∀ n : Word, WritesReg (.ldi d n) s d (s.readData n).toNat)

/-- R156 (decisions D19, D22): `ldc` splits a code word; with equal destinations the upper half stays. -/
def Obligations.LoadFromCode : Prop :=
  ∀ (s : State) (a lo hi : RegNum),
    Completes (.ldc a lo hi) s fun t =>
      (t.readReg hi).toNat = (s.readCode (s.readReg a)).toNat / 65536 ∧
      (lo ≠ hi → (t.readReg lo).toNat = (s.readCode (s.readReg a)).toNat % 65536) ∧
      Advanced s t ∧ ChangesOnly { regs := [lo, hi] } s t

/-- R157, R159 (`memset`: decision D23): stores write one data word, at the content of the address register, and
nothing else: every other data word, every register and the other two domains read as before. -/
def Obligations.StoresToData : Prop :=
  ∀ (s : State) (a : RegNum),
    (∀ r : RegNum, Completes (.st a r) s fun t =>
      t.readData (s.readReg a) = s.readReg r ∧ Advanced s t ∧ ChangesOnly { data := [s.readReg a] } s t) ∧
    (∀ v : Word, Completes (.memset a v) s fun t =>
      t.readData (s.readReg a) = v ∧ Advanced s t ∧ ChangesOnly { data := [s.readReg a] } s t)

/-- R158 (decision D22): `stc` writes one code word, `x[hi] * 65536 + x[lo]`, and nothing else. -/
def Obligations.StoreToCode : Prop :=
  ∀ (s : State) (a lo hi : RegNum),
    Completes (.stc a lo hi) s fun t =>
      (t.readCode (s.readReg a)).toNat = (s.readReg hi).toNat * 65536 + (s.readReg lo).toNat ∧
      Advanced s t ∧ ChangesOnly { code := [s.readReg a] } s t

/-- R158, R63, R285 (decisions D22, D30): a `stc` to the next address is what the very next step fetches. -/
def Obligations.StoredCodeIsFetchedNext : Prop :=
  ∀ (s : State) (a lo hi : RegNum), s.status = .running → decode s.fetch = .instr (.stc a lo hi) →
    (s.readReg a).toNat = (s.pc.toNat + 1) % 65536 →
    ∃ t, step s = .next t ∧ t.status = .running ∧
      t.fetch.toNat = (s.readReg hi).toNat * 65536 + (s.readReg lo).toNat

/-- R160, R161, R163 (decisions D10, D20, D21, D39): a push stores at the stack pointer plus one, modulo 65536, in the
register that implicit register 1 names, and writes the pointer last; a push of the pointer stores its old value. -/
def Obligations.Pushes : Prop :=
  ∀ s : State,
    (∀ r : RegNum, Completes (.push r) s fun t =>
      t.readStack (s.readReg (s.readImpl 1) + 1) = s.readReg r ∧
      (t.readReg (s.readImpl 1)).toNat = ((s.readReg (s.readImpl 1)).toNat + 1) % 65536 ∧ Advanced s t ∧
      ChangesOnly { regs := [s.readImpl 1], stack := [s.readReg (s.readImpl 1) + 1] } s t) ∧
    (∀ v : Word, Completes (.pushi v) s fun t =>
      t.readStack (s.readReg (s.readImpl 1) + 1) = v ∧
      (t.readReg (s.readImpl 1)).toNat = ((s.readReg (s.readImpl 1)).toNat + 1) % 65536 ∧ Advanced s t ∧
      ChangesOnly { regs := [s.readImpl 1], stack := [s.readReg (s.readImpl 1) + 1] } s t)

/-- R162, R163 (decisions D10, D20, D21, D39): a pop loads at the stack pointer and then subtracts one, modulo 65536;
a pop into the pointer itself keeps the pointer update only; no stack word is erased. -/
def Obligations.PopsLoadThenDecrement : Prop :=
  ∀ (s : State) (d : RegNum),
    Completes (.pop d) s fun t =>
      (d ≠ s.readImpl 1 → t.readReg d = s.readStack (s.readReg (s.readImpl 1))) ∧
      (t.readReg (s.readImpl 1)).toNat = ((s.readReg (s.readImpl 1)).toNat + 65535) % 65536 ∧
      Advanced s t ∧ ChangesOnly { regs := [d, s.readImpl 1] } s t

/-- R160, R162 (decision D20): a pop undoes a push exactly, from any stack pointer, wrapping ones included: the value
arrives and the pointer and every other register are as before. -/
def Obligations.PopUndoesPush : Prop :=
  ∀ (s : State) (r d : RegNum), d ≠ s.readImpl 1 →
    ∃ t u, exec (.push r) s = .next t ∧ exec (.pop d) t = .next u ∧
      u.readReg d = s.readReg r ∧ ∀ q, q ≠ d → u.readReg q = s.readReg q

/-! ### Group 2, jump -/

/-- R183 to R186, R181, R182 (link value: decision D17): the unconditional jumps; the target is read before the link is
written. -/
def Obligations.UnconditionalJumps : Prop :=
  ∀ s : State,
    (∀ n : Word, Completes (.j n) s fun t => t.pc = n ∧ ChangesOnly {} s t) ∧
    (∀ (l : RegNum) (n : Word), Completes (.jl l n) s fun t =>
      t.pc = n ∧ (t.readReg l).toNat = (s.pc.toNat + 1) % 65536 ∧ ChangesOnly { regs := [l] } s t) ∧
    (∀ a : RegNum, Completes (.jr a) s fun t => t.pc = s.readReg a ∧ ChangesOnly {} s t) ∧
    (∀ l a : RegNum, Completes (.jrl l a) s fun t =>
      t.pc = s.readReg a ∧ (t.readReg l).toNat = (s.pc.toNat + 1) % 65536 ∧ ChangesOnly { regs := [l] } s t)

/-- R187 to R190 (decisions D10, D17, D18, D19): the jumps taken when the predicate is not zero. The linking forms
write the link whether or not they jump; `jtl` tests the register that implicit register 0 names. -/
def Obligations.JumpsIfTrue : Prop :=
  ∀ s : State,
    (∀ (p : RegNum) (n : Word), Completes (.jt p n) s fun t =>
      (s.readReg p ≠ 0 → t.pc = n) ∧ (s.readReg p = 0 → Advanced s t) ∧ ChangesOnly {} s t) ∧
    (∀ (l : RegNum) (n : Word), Completes (.jtl l n) s fun t =>
      (s.readReg (s.readImpl 0) ≠ 0 → t.pc = n) ∧ (s.readReg (s.readImpl 0) = 0 → Advanced s t) ∧
      (t.readReg l).toNat = (s.pc.toNat + 1) % 65536 ∧ ChangesOnly { regs := [l] } s t) ∧
    (∀ p a : RegNum, Completes (.jrt p a) s fun t =>
      (s.readReg p ≠ 0 → t.pc = s.readReg a) ∧ (s.readReg p = 0 → Advanced s t) ∧ ChangesOnly {} s t) ∧
    (∀ p a l : RegNum, Completes (.jrtl p a l) s fun t =>
      (s.readReg p ≠ 0 → t.pc = s.readReg a) ∧ (s.readReg p = 0 → Advanced s t) ∧
      (t.readReg l).toNat = (s.pc.toNat + 1) % 65536 ∧ ChangesOnly { regs := [l] } s t)

/-- R191 to R194 (decisions D10, D17, D18, D19): the jumps taken when the predicate is zero. -/
def Obligations.JumpsIfFalse : Prop :=
  ∀ s : State,
    (∀ (p : RegNum) (n : Word), Completes (.jf p n) s fun t =>
      (s.readReg p = 0 → t.pc = n) ∧ (s.readReg p ≠ 0 → Advanced s t) ∧ ChangesOnly {} s t) ∧
    (∀ (l : RegNum) (n : Word), Completes (.jfl l n) s fun t =>
      (s.readReg (s.readImpl 0) = 0 → t.pc = n) ∧ (s.readReg (s.readImpl 0) ≠ 0 → Advanced s t) ∧
      (t.readReg l).toNat = (s.pc.toNat + 1) % 65536 ∧ ChangesOnly { regs := [l] } s t) ∧
    (∀ p a : RegNum, Completes (.jrf p a) s fun t =>
      (s.readReg p = 0 → t.pc = s.readReg a) ∧ (s.readReg p ≠ 0 → Advanced s t) ∧ ChangesOnly {} s t) ∧
    (∀ p a l : RegNum, Completes (.jrfl p a l) s fun t =>
      (s.readReg p = 0 → t.pc = s.readReg a) ∧ (s.readReg p ≠ 0 → Advanced s t) ∧
      (t.readReg l).toNat = (s.pc.toNat + 1) % 65536 ∧ ChangesOnly { regs := [l] } s t)

/-- R195 to R198 (decisions D10, D17, D19): the two-way jumps always jump; the linking forms test the register that
implicit register 0 names and link on both branches, the targets being read first. -/
def Obligations.IfThenElseJumps : Prop :=
  ∀ (s : State) (p t f : RegNum),
    (Completes (.ift p t f) s fun u =>
      u.pc = (if s.readReg p ≠ 0 then s.readReg t else s.readReg f) ∧ ChangesOnly {} s u) ∧
    (Completes (.iff p t f) s fun u =>
      u.pc = (if s.readReg p = 0 then s.readReg t else s.readReg f) ∧ ChangesOnly {} s u) ∧
    (Completes (.iftl p t f) s fun u =>
      u.pc = (if s.readReg (s.readImpl 0) ≠ 0 then s.readReg t else s.readReg f) ∧
      (u.readReg p).toNat = (s.pc.toNat + 1) % 65536 ∧ ChangesOnly { regs := [p] } s u) ∧
    (Completes (.iffl p t f) s fun u =>
      u.pc = (if s.readReg (s.readImpl 0) = 0 then s.readReg t else s.readReg f) ∧
      (u.readReg p).toNat = (s.pc.toNat + 1) % 65536 ∧ ChangesOnly { regs := [p] } s u)

/-! ### Group 3, compare -/

/-- R212 to R217, R211 (unsigned order and the value 1: decisions D12, D15): the register comparisons. -/
def Obligations.CompareRegisters : Prop :=
  ∀ (s : State) (d a b : RegNum),
    WritesReg (.eq d a b) s d (if (s.readReg a).toNat = (s.readReg b).toNat then 1 else 0) ∧
    WritesReg (.ne d a b) s d (if (s.readReg a).toNat ≠ (s.readReg b).toNat then 1 else 0) ∧
    WritesReg (.lt d a b) s d (if (s.readReg a).toNat < (s.readReg b).toNat then 1 else 0) ∧
    WritesReg (.gt d a b) s d (if (s.readReg a).toNat > (s.readReg b).toNat then 1 else 0) ∧
    WritesReg (.le d a b) s d (if (s.readReg a).toNat ≤ (s.readReg b).toNat then 1 else 0) ∧
    WritesReg (.ge d a b) s d (if (s.readReg a).toNat ≥ (s.readReg b).toNat then 1 else 0)

/-- R218 to R223, R211 (decisions D12, D15, D16): the comparisons with a zero-extended immediate. -/
def Obligations.CompareImmediates : Prop :=
  ∀ (s : State) (d a : RegNum) (n : Byte),
    WritesReg (.eqi d a n) s d (if (s.readReg a).toNat = n.toNat then 1 else 0) ∧
    WritesReg (.nei d a n) s d (if (s.readReg a).toNat ≠ n.toNat then 1 else 0) ∧
    WritesReg (.lti d a n) s d (if (s.readReg a).toNat < n.toNat then 1 else 0) ∧
    WritesReg (.gti d a n) s d (if (s.readReg a).toNat > n.toNat then 1 else 0) ∧
    WritesReg (.lei d a n) s d (if (s.readReg a).toNat ≤ n.toNat then 1 else 0) ∧
    WritesReg (.gei d a n) s d (if (s.readReg a).toNat ≥ n.toNat then 1 else 0)

/-! ### Group 4, misc -/

/-- R232, R32 (decision D28): halt changes the status alone, whatever its register arguments; the halted machine makes
no step. -/
def Obligations.HaltStopsTheMachine : Prop :=
  ∀ (s : State) (ra rb : RegNum),
    exec (.system 1 ra rb) s = .next { s with status := .halted } ∧
    step { s with status := .halted } = .fault .halted

/-- R233 (decision D24): getc with a byte pending takes it, zero-extended, into the whole of `x[ra]`. -/
def Obligations.GetcTakesTheNextByte : Prop :=
  ∀ (s : State) (ra rb : RegNum) (c : Byte) (rest : List Byte), s.stdin.pending = c :: rest →
    Completes (.system 2 ra rb) s fun t =>
      (t.readReg ra).toNat = c.toNat ∧ t.stdin.pending = rest ∧ t.stdin.closed = s.stdin.closed ∧
      t.draws = s.draws ∧ Advanced s t ∧ ChangesOnly { regs := [ra], stdin := true } s t

/-- R233 (decision D26; log 6): at the end of the input getc completes and stores the next draw, an open value of
which nothing is known; the stream is unchanged and the next draw is another one. Holds for every value of the model's
own field `draws`. -/
def Obligations.GetcAtTheEndStoresAnOpenValue : Prop :=
  ∀ (s : State) (ra rb : RegNum), s.stdin.pending = [] → s.stdin.closed = true →
    Completes (.system 2 ra rb) s fun t =>
      t.readReg ra = Config.getcEof s.draws ∧ t.draws = s.draws + 1 ∧ Advanced s t ∧
      ChangesOnly { regs := [ra], draws := true } s t

/-- R233, R286 (V6 of 93_implementation_defined.md; the form of the stop is the model's, log 7): while the stream is
open and empty getc makes no step; once the host has supplied a byte it takes it. -/
def Obligations.GetcWaitsForTheHost : Prop :=
  ∀ (s : State) (ra rb : RegNum), s.stdin.pending = [] → s.stdin.closed = false →
    exec (.system 2 ra rb) s = .fault .awaitingInput ∧
    ∀ (c : Byte) (rest : List Byte), Completes (.system 2 ra rb) (s.supplyInput (c :: rest)) fun t =>
      (t.readReg ra).toNat = c.toNat ∧ t.stdin.pending = rest ∧ Advanced s t ∧
      ChangesOnly { regs := [ra], stdin := true } s t

/-- R234 (decision D24): putc appends the low byte of `x[ra]` to the output and changes nothing else. -/
def Obligations.PutcAppendsTheLowByte : Prop :=
  ∀ (s : State) (ra rb : RegNum),
    Completes (.system 3 ra rb) s fun t =>
      (∃ c : Byte, c.toNat = (s.readReg ra).toNat % 256 ∧ t.stdout = s.stdout ++ [c]) ∧ Advanced s t ∧
      ChangesOnly { stdout := true } s t

/-- R235, R231, R252 (decisions D25, D27): `system` 4 panics as requested; index 0 and 5 to 255 panic as undefined. -/
def Obligations.SystemPanics : Prop :=
  ∀ (s : State) (n : Byte) (ra rb : RegNum),
    exec (.system 4 ra rb) s = .next { s with status := .panicked .requested } ∧
    (n.toNat = 0 ∨ n.toNat ≥ 5 →
      exec (.system n ra rb) s = .next { s with status := .panicked .undefinedSystemOperation })

/-- R236, R237: the implicit sets store the low byte of the value register in the implicit register named by the
immediate or by the low byte of the index register; what names the stack pointer and the predicate from then on is what
was stored. Their encodings. -/
def Obligations.ImplicitSets : Prop :=
  SelectedBy 0x0C (fun k r _ => .implicitSet k r) ∧ SelectedBy 0x14 (fun ri r _ => .implicitIndirectSet ri r) ∧
  ∀ (s : State) (r : RegNum),
    (∀ k : ImplNum, Completes (.implicitSet k r) s fun t =>
      (t.readImpl k).toNat = (s.readReg r).toNat % 256 ∧
      (k = config.implStackIndex → t.spIdx.toNat = (s.readReg r).toNat % 256) ∧
      (k = config.implPredicateIndex → t.predIdx.toNat = (s.readReg r).toNat % 256) ∧
      Advanced s t ∧ ChangesOnly { impl := [k] } s t) ∧
    (∀ (ri : RegNum) (k : ImplNum), k.toNat = (s.readReg ri).toNat % 256 →
      Completes (.implicitIndirectSet ri r) s fun t =>
        (t.readImpl k).toNat = (s.readReg r).toNat % 256 ∧ Advanced s t ∧ ChangesOnly { impl := [k] } s t)

/-- R238, R239 (upper byte zero: decision D32): the implicit gets; the index register is read before the write. -/
def Obligations.ImplicitGets : Prop :=
  ∀ (s : State) (d : RegNum) (k : ImplNum),
    WritesReg (.implicitGet d k) s d (s.readImpl k).toNat ∧
    ∀ ri : RegNum, k.toNat = (s.readReg ri).toNat % 256 →
      WritesReg (.implicitIndirectGet d ri) s d (s.readImpl k).toNat

/-- R163, R236, R240 (decisions D10, D20): a change of implicit register 1 moves the role of stack pointer for the very
next instruction; the old pointer register keeps its value as an ordinary register. -/
def Obligations.StackPointerMoves : Prop :=
  ∀ (s : State) (r q n : RegNum), n.toNat = (s.readReg r).toNat % 256 → n ≠ s.readImpl 1 →
    ∃ t u, exec (.implicitSet 1 r) s = .next t ∧ exec (.push q) t = .next u ∧
      u.readStack (s.readReg n + 1) = s.readReg q ∧
      (u.readReg n).toNat = ((s.readReg n).toNat + 1) % 65536 ∧
      u.readReg (s.readImpl 1) = s.readReg (s.readImpl 1)

/-! ### State and memory -/

/-- R21, R22 (decision D9): all 256 registers read what was last written, none is hardwired, and writing one leaves the
others; the same of the implicit registers (R27). -/
def Obligations.EveryRegisterReadsBack : Prop :=
  (∀ (s : State) (i j : RegNum) (v : Word),
    (s.writeReg i v).readReg i = v ∧ (j ≠ i → (s.writeReg i v).readReg j = s.readReg j)) ∧
  (∀ (s : State) (k j : ImplNum) (v : Byte),
    (s.writeImpl k v).readImpl k = v ∧ (j ≠ k → (s.writeImpl k v).readImpl j = s.readImpl j))

/-- R31, R54, R60 (a), (b) (decisions D30, D35): in each domain a read returns the last word written there, a write
leaves every other address of the domain alone and never touches another domain, at every address. No premise on the
memory. -/
def Obligations.MemoryReadsBack : Prop :=
  ∀ (s : State) (a b : Word) (c : CodeWord) (v : Word),
    (s.writeCode a c).readCode a = c ∧ (s.writeData a v).readData a = v ∧ (s.writeStack a v).readStack a = v ∧
    (b ≠ a → (s.writeCode a c).readCode b = s.readCode b ∧ (s.writeData a v).readData b = s.readData b ∧
      (s.writeStack a v).readStack b = s.readStack b) ∧
    (s.writeCode a c).readData b = s.readData b ∧ (s.writeCode a c).readStack b = s.readStack b ∧
    (s.writeData a v).readCode b = s.readCode b ∧ (s.writeData a v).readStack b = s.readStack b ∧
    (s.writeStack a v).readCode b = s.readCode b ∧ (s.writeStack a v).readData b = s.readData b

/-- The canonical form (log 1) makes memories that read alike equal data: the list shows no more than the 65536 words
of R31. -/
def Obligations.CanonicalMemoriesAreEqual : Prop :=
  ∀ (w : Nat) (m m' : Mem w), Mem.wf m = true → Mem.wf m' = true →
    (∀ a < 65536, Mem.read m a = Mem.read m' a) → m = m'

/-- R29, R281 (decisions D8, D10, D11, D35): the state after reset, for every launch; what the spec leaves unspecified
is what the launch supplied. `State.reset` is one of these states, and its memories are canonical (its contents are the
model's choice, logs 2 to 6). -/
def Obligations.StateAfterReset : Prop :=
  (∀ l : Launch,
    (State.launch l).pc = 0 ∧ (State.launch l).status = .running ∧ (State.launch l).stdout = [] ∧
    (State.launch l).readImpl 1 = 254 ∧ (State.launch l).readImpl 0 = 255 ∧
    (∀ k : ImplNum, k ≠ 0 → k ≠ 1 → (State.launch l).readImpl k = l.impl[k.toNat]'(implNum_lt k)) ∧
    (∀ r : RegNum, (State.launch l).readReg r = l.regs[r.toNat]'r.isLt) ∧
    (State.launch l).code = l.code ∧ (State.launch l).data = l.data ∧ (State.launch l).stack = l.stack ∧
    (State.launch l).stdin = l.stdin) ∧
  (∃ l : Launch, State.reset = State.launch l) ∧ State.reset.wf = true

/-- R57, R268, R283 (decisions D31, D35): a loaded program is in code memory, word for word from its first address,
and a byte image of instructions loads their words from `RESET_PC` = 0 (decision D8). That a load which runs past
0xFFFF goes on at 0, and that an image is flat with its first word at `RESET_PC`, is the model's choice, log 35; no rule
of the spec says it. -/
def Obligations.LoadedProgramIsInCode : Prop :=
  (∀ (s : State) (a : Word) (ws : List CodeWord) (k : Nat) (h : k < ws.length), ws.length ≤ 65536 →
    (s.loadCode a ws).readCode (a + BitVec.ofNat 16 k) = ws[k]) ∧
  (∀ (s : State) (p : List Instr) (k : Nat) (h : k < p.length), p.length ≤ 65536 →
    (s.loadImage (p.flatMap encodeBytes)).readCode (BitVec.ofNat 16 k) = encode p[k])

/-! ### The step and the whole machine -/

/-- R11: a running machine whose fetched word decodes to an instruction performs that instruction; nothing is added
around it, every meaning moving the program counter itself. The fetch is the code word at `pc` (R50). -/
def Obligations.StepRunsTheDecodedInstruction : Prop :=
  ∀ (s : State) (i : Instr), s.status = .running → decode (s.readCode s.pc) = .instr i → step s = exec i s

/-- The host's word placed where `step` fetches (R50, log 35): the next step of a running machine runs exactly it, and
nothing but that code word has changed. -/
def Obligations.PlacedWordRunsNext : Prop :=
  ∀ (s : State) (w : CodeWord) (i : Instr), s.status = .running → decode w = .instr i →
    step (s.withFetchWord 32 w.toNat) = exec i (s.withFetchWord 32 w.toNat) ∧
    (s.withFetchWord 32 w.toNat).pc = s.pc ∧ ChangesOnly { code := [s.pc] } s (s.withFetchWord 32 w.toNat)

/-- R32, R252, R267 (decisions D27, D28): a machine that has halted or panicked makes no step. -/
def Obligations.StoppedMachineMakesNoStep : Prop :=
  ∀ s : State, (s.status = .halted → step s = .fault .halted) ∧
    (∀ r, s.status = .panicked r → step s = .fault (.panicked r))

/-- R286 (decision D36): a running machine always has a next step, except while a getc waits for input. -/
def Obligations.RunningMachineHasANextStep : Prop :=
  ∀ s : State, s.status = .running →
    (∃ t, step s = .next t) ∨
    ((∃ ra rb, decode s.fetch = .instr (.system 2 ra rb)) ∧ s.stdin.pending = [] ∧ s.stdin.closed = false ∧
      step s = .fault .awaitingInput)

/-- Every step keeps the canonical form of the three memories (log 1), from every state that has it. -/
def Obligations.StepKeepsMemoriesCanonical : Prop :=
  ∀ s t : State, s.wf = true → step s = .next t → t.wf = true

/-- R252 (decision D27): a step that ends panicked has changed the status and nothing else: no register, no memory
word, no output byte, and `pc` still addresses the instruction. -/
def Obligations.PanicWritesNothing : Prop :=
  ∀ (s t : State) (r : PanicReason), s.status = .running → step s = .next t → t.status = .panicked r →
    t = { s with status := .panicked r }

/-- R251, R256 (decisions D2 to D5, D13, D25): the closed list of the causes of a panic. A running machine takes the
panic `r` exactly when the bits of the fetched word and the divisor register say so, group first, then operation, then
the instruction's own cause. -/
def Obligations.PanicsExactlyOnTheListedCauses : Prop :=
  ∀ (s : State) (r : PanicReason), s.status = .running →
    (step s = .next { s with status := .panicked r } ↔ panicCause s = some r)

/-- R232 (decision D28): the end of a run is exactly the step whose fetched word is a `system` with `b1` = 1. -/
def Obligations.HaltsExactlyOnSystemOne : Prop :=
  ∀ s : State, s.status = .running →
    ((∃ t, step s = .next t ∧ t.status = .halted) ↔ s.fetch.toNat % 65536 = 0x0104)

/-- R20, R59, R90, R199 (decisions D10, D18 to D23): what each of the 63 instructions may change, and that it changes
nothing else, whenever it answers a next state. -/
def Obligations.EveryInstructionKeepsItsFootprint : Prop :=
  ∀ (i : Instr) (s t : State), exec i s = .next t → ChangesOnly (footprint i s) s t

/-- R20, R50 to R52, R60 (decision D30): only `stc` writes code memory, only `st` and `memset` data memory, only `push`
and `pushi` stack memory, only the two implicit sets the implicit registers, and only `system` the streams and the
status, except that the dividing instructions can panic. -/
def Obligations.StateIsWrittenOnlyByItsWriters : Prop :=
  ∀ (i : Instr) (s t : State), exec i s = .next t →
    (i.op ≠ .stc → t.code = s.code) ∧
    (i.op ∉ [Op.st, .memset] → t.data = s.data) ∧
    (i.op ∉ [Op.push, .pushi] → t.stack = s.stack) ∧
    (i.op ∉ [Op.implicitSet, .implicitIndirectSet] → t.impl = s.impl) ∧
    (i.op ≠ .system → t.stdin = s.stdin ∧ t.stdout = s.stdout ∧ t.draws = s.draws) ∧
    (i.op ∉ [Op.system, .div, .rem, .divi, .remi] → t.status = s.status)

/-- R50, R51, R52, R163: only `ldc` reads code memory (the fetch apart), only `ld` and `ldi` data memory, only `pop`
stack memory: whatever another instruction does, it does the same over any other contents of that memory, and leaves
those contents but for its own store. A getc at the end of the input draws the same open value in both (log 6). -/
def Obligations.MemoriesAreReadOnlyByTheirReaders : Prop :=
  ∀ (i : Instr) (s t : State), exec i s = .next t →
    (∀ m, i.op ≠ .ldc → ∃ t', exec i { s with code := m } = .next t' ∧ t' = { t with code := t'.code } ∧
      (i.op ≠ .stc → t'.code = m)) ∧
    (∀ m, i.op ∉ [Op.ld, .ldi] → ∃ t', exec i { s with data := m } = .next t' ∧ t' = { t with data := t'.data } ∧
      (i.op ∉ [Op.st, .memset] → t'.data = m)) ∧
    (∀ m, i.op ≠ .pop → ∃ t', exec i { s with stack := m } = .next t' ∧ t' = { t with stack := t'.stack } ∧
      (i.op ∉ [Op.push, .pushi] → t'.stack = m))

/-- R11, R26, R181 (decisions D7, D38): unless it is one of the sixteen jumps or stopped the machine, an instruction
goes on to the next address modulo 65536. -/
def Obligations.OtherInstructionsAdvance : Prop :=
  ∀ (i : Instr) (s t : State), s.status = .running → exec i s = .next t → t.status = .running →
    isJump i = false → Advanced s t

/-- R33, R60 (c), R268 (decisions D26, D30, D35): over a run of any length from any state, the output only grows at its
end and the input is only taken from its front: no byte is dropped or reordered. -/
def Obligations.StreamsKeepTheirOrder : Prop :=
  ∀ (n : Nat) (s t : State), core.run n s = .next t →
    (∃ out, t.stdout = s.stdout ++ out) ∧ (∃ taken, s.stdin.pending = taken ++ t.stdin.pending) ∧
    t.stdin.closed = s.stdin.closed
end

