-- ==== Sys2Proof/Laws/Config.lean ====
section
/-!
SUPPORT. The decided value of each parameter, one lemma each.
-/

namespace Sys2Proof

theorem config_nimpl : config.nimpl = 256 := rfl
@[simp] theorem config_implPredicateIndex : config.implPredicateIndex = 0 := rfl
@[simp] theorem config_implStackIndex : config.implStackIndex = 1 := rfl
@[simp] theorem config_resetImplStackTarget : config.resetImplStackTarget = 254 := rfl
@[simp] theorem config_resetImplPredicateTarget : config.resetImplPredicateTarget = 255 := rfl
@[simp] theorem config_resetPc : config.resetPc = 0 := rfl
@[simp] theorem config_linkOffset : config.linkOffset = 1 := rfl
@[simp] theorem config_linkWhenNotTaken : config.linkWhenNotTaken = true := rfl
@[simp] theorem config_trueValue : config.trueValue = 1 := rfl
@[simp] theorem config_signed : config.signed = false := rfl
@[simp] theorem config_stackPushDelta : config.stackPushDelta = 1 := rfl
@[simp] theorem config_shiftOverWidth : config.shiftOverWidth = 0 := rfl
@[simp] theorem config_divByZero : config.divByZero = .divideByZero := rfl

end Sys2Proof
end

