-- ==== Sys2Proof/Laws/Decode.lean ====
section
/-!
SUPPORT. The fields of a word as numbers, packing and unpacking of bytes, and the opcode map as a two-way table.
-/

namespace Sys2Proof

/-! ### Fields as numbers -/

theorem grpOf_toNat (w : CodeWord) : (grpOf w).toNat = w.toNat % 8 := by
  simp [grpOf, BitVec.extractLsb'_toNat]
theorem opOf_toNat (w : CodeWord) : (opOf w).toNat = w.toNat / 8 % 32 := by
  simp [opOf, BitVec.extractLsb'_toNat, Nat.shiftRight_eq_div_pow]
theorem byte0_toNat (w : CodeWord) : (byte0 w).toNat = w.toNat % 256 := by
  simp [byte0, BitVec.extractLsb'_toNat]
theorem b1_toNat (w : CodeWord) : (b1 w).toNat = w.toNat / 256 % 256 := by
  simp [b1, BitVec.extractLsb'_toNat, Nat.shiftRight_eq_div_pow]
theorem b2_toNat (w : CodeWord) : (b2 w).toNat = w.toNat / 65536 % 256 := by
  simp [b2, BitVec.extractLsb'_toNat, Nat.shiftRight_eq_div_pow]
theorem b3_toNat (w : CodeWord) : (b3 w).toNat = w.toNat / 16777216 := by
  have := w.isLt
  simp [b3, BitVec.extractLsb'_toNat, Nat.shiftRight_eq_div_pow]
  omega
theorem imm16_toNat (w : CodeWord) : (imm16 w).toNat = w.toNat / 65536 := by
  have := w.isLt
  simp [imm16, BitVec.extractLsb'_toNat, Nat.shiftRight_eq_div_pow]
  omega

theorem packWord_toNat (c0 c1 c2 c3 : Byte) :
    (packWord c0 c1 c2 c3).toNat = c0.toNat + c1.toNat * 256 + c2.toNat * 65536 + c3.toNat * 16777216 := by
  have := c0.isLt; have := c1.isLt; have := c2.isLt; have := c3.isLt
  simp only [packWord, BitVec.toNat_ofNat]
  omega

@[simp] theorem byte0_packWord (c0 c1 c2 c3 : Byte) : byte0 (packWord c0 c1 c2 c3) = c0 := by
  apply BitVec.eq_of_toNat_eq; rw [byte0_toNat, packWord_toNat]; have := c0.isLt; omega
@[simp] theorem b1_packWord (c0 c1 c2 c3 : Byte) : b1 (packWord c0 c1 c2 c3) = c1 := by
  apply BitVec.eq_of_toNat_eq; rw [b1_toNat, packWord_toNat]; have := c0.isLt; have := c1.isLt; omega
@[simp] theorem b2_packWord (c0 c1 c2 c3 : Byte) : b2 (packWord c0 c1 c2 c3) = c2 := by
  apply BitVec.eq_of_toNat_eq; rw [b2_toNat, packWord_toNat]
  have := c0.isLt; have := c1.isLt; have := c2.isLt; omega
@[simp] theorem b3_packWord (c0 c1 c2 c3 : Byte) : b3 (packWord c0 c1 c2 c3) = c3 := by
  apply BitVec.eq_of_toNat_eq; rw [b3_toNat, packWord_toNat]
  have := c0.isLt; have := c1.isLt; have := c2.isLt; have := c3.isLt; omega
@[simp] theorem imm16_packWord (c0 c1 : Byte) (v : Word) :
    imm16 (packWord c0 c1 (v.extractLsb' 0 8) (v.extractLsb' 8 8)) = v := by
  apply BitVec.eq_of_toNat_eq; rw [imm16_toNat, packWord_toNat]
  have := c0.isLt; have := c1.isLt; have := v.isLt
  simp [BitVec.extractLsb'_toNat, Nat.shiftRight_eq_div_pow]; omega

/-- A word is its four bytes. -/
theorem packWord_bytes (w : CodeWord) : packWord (byte0 w) (b1 w) (b2 w) (b3 w) = w := by
  apply BitVec.eq_of_toNat_eq
  rw [packWord_toNat, byte0_toNat, b1_toNat, b2_toNat, b3_toNat]
  have := w.isLt; omega

/-! ### Fields of an encoded instruction -/

theorem byte0_encode (i : Instr) : byte0 (encode i) = i.op.byte0 := byte0_packWord ..
theorem b1_encode (i : Instr) : b1 (encode i) = i.fields.1 := b1_packWord ..
theorem b2_encode (i : Instr) : b2 (encode i) = i.fields.2.1 := b2_packWord ..
theorem b3_encode (i : Instr) : b3 (encode i) = i.fields.2.2 := b3_packWord ..

theorem imm16_encode {i : Instr} {v : Word} (h2 : i.fields.2.1 = v.extractLsb' 0 8)
    (h3 : i.fields.2.2 = v.extractLsb' 8 8) : imm16 (encode i) = v := by
  rw [encode, h2, h3, imm16_packWord]

/-! ### The opcode map -/

/-- The operation a value of byte 0 selects (R88), or the panic it raises. -/
def selectOp (c : Byte) : Except PanicReason Op :=
  match opmap (c.toNat % 8) with
  | none => .error .undefinedGroup
  | some ops =>
    match ops[c.toNat / 8]? with
    | none => .error .undefinedOperation
    | some o => .ok o

/-- Decoding looks at byte 0 to select, and at the rest of the word for the operands only (R88). -/
theorem decode_eq_select (w : CodeWord) :
    decode w = match selectOp (byte0 w) with
      | .error r => .undefined r
      | .ok o => .instr (buildInstr o w) := by
  have hg : (byte0 w).toNat % 8 = (grpOf w).toNat := by rw [byte0_toNat, grpOf_toNat]; omega
  have ho : (byte0 w).toNat / 8 = (opOf w).toNat := by rw [byte0_toNat, opOf_toNat]; omega
  unfold decode selectOp
  rw [hg, ho]
  cases opmap (grpOf w).toNat with
  | none => rfl
  | some ops => simp only; cases ops[(opOf w).toNat]? <;> rfl

/-- Every operation is selected by its own byte 0. -/
theorem selectOp_byte0 (o : Op) : selectOp o.byte0 = .ok o := by cases o <;> rfl

/-- The instruction built for an operation is of that operation. -/
@[simp] theorem op_buildInstr (o : Op) (w : CodeWord) : (buildInstr o w).op = o := by cases o <;> rfl

/-- The spelling of an operation names it. -/
theorem ofMnemonic_mnemonic (o : Op) : Op.ofMnemonic o.mnemonic = some o := by cases o <;> decide

end Sys2Proof
end

