-- ==== Sys2Proof/Laws/Operands.lean ====
section
/-!
SUPPORT. The operand forms and truth values as numbers, with the decided configuration.
-/

namespace Sys2Proof.Machine

@[simp] theorem zext16_toNat (v : Byte) : (zext16 v).toNat = v.toNat := by
  have := v.isLt
  simp [zext16]; omega

@[simp] theorem zext16_eq_zero (v : Byte) : zext16 v = 0 ↔ v = 0 := by
  rw [← BitVec.toNat_inj, ← BitVec.toNat_inj, zext16_toNat]; rfl

@[simp] theorem lowByte_toNat (v : Word) : (lowByte v).toNat = v.toNat % 256 := by
  simp [lowByte, BitVec.extractLsb'_toNat]

@[simp] theorem trunc16_toNat (n : Nat) : (trunc16 n).toNat = n % 65536 := by simp [trunc16]

@[simp] theorem lowerHalf_toNat (w : CodeWord) : (lowerHalf w).toNat = w.toNat % 65536 := by
  simp [lowerHalf, BitVec.extractLsb'_toNat]

@[simp] theorem upperHalf_toNat (w : CodeWord) : (upperHalf w).toNat = w.toNat / 65536 := by
  have := w.isLt
  simp [upperHalf, BitVec.extractLsb'_toNat, Nat.shiftRight_eq_div_pow]; omega

@[simp] theorem joinHalves_toNat (hi lo : Word) : (joinHalves hi lo).toNat = hi.toNat * 65536 + lo.toNat := by
  have := hi.isLt; have := lo.isLt
  simp only [joinHalves, BitVec.toNat_ofNat]; omega

/-- Floor division (R127). -/
@[simp] theorem quotient_toNat (a b : Word) : (quotient a b).toNat = a.toNat / b.toNat := by
  have := a.isLt; have := Nat.div_le_self a.toNat b.toNat
  simp [quotient]; omega

/-- The remainder (R128). -/
@[simp] theorem remainder_toNat (a b : Word) : (remainder a b).toNat = a.toNat % b.toNat := by
  have := a.isLt; have := Nat.mod_le a.toNat b.toNat
  simp [remainder]; omega

/-- One formula for every count (R129, R142). -/
@[simp] theorem shiftLeft_toNat (a n : Word) : (shiftLeft a n).toNat = a.toNat * 2 ^ n.toNat % 65536 := by
  unfold shiftLeft
  split
  · rename_i h
    obtain ⟨k, hk⟩ := Nat.exists_eq_add_of_le h
    have : a.toNat * 2 ^ n.toNat = 65536 * (a.toNat * 2 ^ k) := by rw [hk, Nat.pow_add]; ring
    rw [this]; simp
  · simp [Nat.shiftLeft_eq]

/-- One formula for every count (R130, R142). -/
@[simp] theorem shiftRight_toNat (a n : Word) : (shiftRight a n).toNat = a.toNat / 2 ^ n.toNat := by
  unfold shiftRight
  split
  · rename_i h
    have hp : 2 ^ 16 ≤ 2 ^ n.toNat := Nat.pow_le_pow_right (by decide) h
    have ha := a.isLt
    rw [Nat.div_eq_of_lt (by omega)]; simp
  · simp [Nat.shiftRight_eq_div_pow]

@[simp] theorem truthValue_toNat (b : Bool) : (truthValue b).toNat = if b then 1 else 0 := by
  cases b <;> rfl

@[simp] theorem isTrue_eq (v : Word) : isTrue v = decide (v ≠ 0) := rfl

/-- Unsigned order (R211). -/
@[simp] theorem ltWord_eq (a b : Word) : ltWord a b = decide (a.toNat < b.toNat) := by
  simp [ltWord, BitVec.ult]

@[simp] theorem leWord_eq (a b : Word) : leWord a b = decide (a.toNat ≤ b.toNat) := by
  simp [leWord, BitVec.ule]

end Sys2Proof.Machine
end

