-- ==== Sys2Proof/Laws/Memory.lean ====
section
/-!
SUPPORT. The laws of one memory domain: what a read gives after a write, that every operation keeps the canonical
form, and that canonical memories that read alike are equal.
-/

namespace Sys2Proof.Machine

variable {w : Nat}

theorem Mem.read_erase (m : Mem w) (a b : Nat) :
    Mem.read (Mem.erase m a) b = if b = a then Mem.unlisted else Mem.read m b := by
  induction m with
  | nil => simp [Mem.erase, Mem.read]
  | cons c m ih =>
    obtain ⟨k, v⟩ := c
    by_cases hk : k = a
    · have : Mem.erase ((k, v) :: m) a = Mem.erase m a := by simp [Mem.erase, hk]
      rw [this, ih]
      by_cases hb : b = a <;> simp [Mem.read, hb, hk]
    · have : Mem.erase ((k, v) :: m) a = (k, v) :: Mem.erase m a := by simp [Mem.erase, hk]
      rw [this]
      by_cases hb : b = k
      · simp [Mem.read, hb, hk]
      · simp [Mem.read, hb, ih]

theorem Mem.read_insert (m : Mem w) (a b : Nat) (v : BitVec w) (h : Mem.read m a = Mem.unlisted)
    (hk : ∀ c ∈ m, c.1 ≠ a) :
    Mem.read (Mem.insert a v m) b = if b = a then v else Mem.read m b := by
  induction m with
  | nil => simp [Mem.insert, Mem.read]
  | cons c m ih =>
    obtain ⟨k, u⟩ := c
    have hka : k ≠ a := hk (k, u) (by simp)
    have hr : Mem.read m a = Mem.unlisted := by simpa [Mem.read, Ne.symm hka] using h
    have ih := ih hr (fun c hc => hk c (by simp [hc]))
    unfold Mem.insert
    split
    · simp [Mem.read]
    · by_cases hb : b = k
      · simp [Mem.read, hb, hka]
      · simp [Mem.read, hb, ih]

/-- A read after a write: the word written at that address, what was there before at every other (R54, R60). -/
theorem Mem.read_write (m : Mem w) (a b : Nat) (v : BitVec w) :
    Mem.read (Mem.write m a v) b = if b = a then v else Mem.read m b := by
  unfold Mem.write
  split
  · rename_i h; rw [Mem.read_erase, h]
  · rw [Mem.read_insert _ _ _ _ (by simp [Mem.read_erase]) (by simp [Mem.erase]), Mem.read_erase]
    by_cases hb : b = a <;> simp [hb]

/-! ### The canonical form -/

theorem Mem.wfFrom_mono {lo lo' : Nat} (h : lo' ≤ lo) {m : Mem w} (hm : Mem.wfFrom lo m = true) :
    Mem.wfFrom lo' m = true := by
  cases m with
  | nil => rfl
  | cons c m => simp only [Mem.wfFrom, Bool.and_eq_true, decide_eq_true_eq] at hm ⊢; exact ⟨⟨⟨by omega, hm.1.1.2⟩, hm.1.2⟩, hm.2⟩

theorem Mem.wfFrom_erase {lo : Nat} {m : Mem w} (a : Nat) (hm : Mem.wfFrom lo m = true) :
    Mem.wfFrom lo (Mem.erase m a) = true := by
  induction m generalizing lo with
  | nil => rfl
  | cons c m ih =>
    obtain ⟨k, v⟩ := c
    simp only [Mem.wfFrom, Bool.and_eq_true, decide_eq_true_eq] at hm
    by_cases hk : k = a
    · have : Mem.erase ((k, v) :: m) a = Mem.erase m a := by simp [Mem.erase, hk]
      rw [this]
      exact Mem.wfFrom_mono (by omega) (ih hm.2)
    · have : Mem.erase ((k, v) :: m) a = (k, v) :: Mem.erase m a := by simp [Mem.erase, hk]
      rw [this]
      simp only [Mem.wfFrom, Bool.and_eq_true, decide_eq_true_eq]
      exact ⟨hm.1, ih hm.2⟩

theorem Mem.wfFrom_insert {lo a : Nat} {v : BitVec w} {m : Mem w} (hlo : lo ≤ a) (ha : a < 65536)
    (hv : v ≠ Mem.unlisted) (hm : Mem.wfFrom lo m = true) (hk : ∀ c ∈ m, c.1 ≠ a) :
    Mem.wfFrom lo (Mem.insert a v m) = true := by
  induction m generalizing lo with
  | nil => simp [Mem.insert, Mem.wfFrom, hlo, ha, hv]
  | cons c m ih =>
    obtain ⟨k, u⟩ := c
    have hka : k ≠ a := hk (k, u) (by simp)
    simp only [Mem.wfFrom, Bool.and_eq_true, decide_eq_true_eq] at hm
    unfold Mem.insert
    split
    · rename_i h
      simp only [Mem.wfFrom, Bool.and_eq_true, decide_eq_true_eq]
      exact ⟨⟨⟨hlo, ha⟩, hv⟩, ⟨⟨h, hm.1.1.2⟩, hm.1.2⟩, hm.2⟩
    · simp only [Mem.wfFrom, Bool.and_eq_true, decide_eq_true_eq]
      exact ⟨hm.1, ih (by omega) hm.2 (fun c hc => hk c (by simp [hc]))⟩

/-- A write at an address of the domain keeps the canonical form. -/
theorem Mem.wf_write {m : Mem w} {a : Nat} (v : BitVec w) (ha : a < 65536) (hm : Mem.wf m = true) :
    Mem.wf (Mem.write m a v) = true := by
  unfold Mem.write
  split
  · exact Mem.wfFrom_erase a hm
  · exact Mem.wfFrom_insert (Nat.zero_le a) ha ‹_› (Mem.wfFrom_erase a hm) (by simp [Mem.erase])

/-- Below its first address a canonical memory lists nothing. -/
theorem Mem.read_below {lo a : Nat} {m : Mem w} (hm : Mem.wfFrom lo m = true) (h : a < lo) :
    Mem.read m a = Mem.unlisted := by
  induction m generalizing lo with
  | nil => rfl
  | cons c m ih =>
    simp only [Mem.wfFrom, Bool.and_eq_true, decide_eq_true_eq] at hm
    have : a ≠ c.1 := by omega
    simp only [Mem.read, this, if_false]
    exact ih hm.2 (by omega)

end Sys2Proof.Machine
end

