-- ==== Sys2Proof/Laws/State.lean ====
section
/-!
SUPPORT. One lemma per field per update of the state, and what each accessor reads after each update.
-/

namespace Sys2Proof.Machine

variable (s : State)

/-! ### Fields after an update -/

theorem State.writeReg_regs (i : RegNum) (v : Word) : (s.writeReg i v).regs = s.regs.set i.toNat v i.isLt := rfl
@[simp] theorem State.writeReg_impl (i : RegNum) (v : Word) : (s.writeReg i v).impl = s.impl := rfl
@[simp] theorem State.writeReg_pc (i : RegNum) (v : Word) : (s.writeReg i v).pc = s.pc := rfl
@[simp] theorem State.writeReg_code (i : RegNum) (v : Word) : (s.writeReg i v).code = s.code := rfl
@[simp] theorem State.writeReg_data (i : RegNum) (v : Word) : (s.writeReg i v).data = s.data := rfl
@[simp] theorem State.writeReg_stack (i : RegNum) (v : Word) : (s.writeReg i v).stack = s.stack := rfl
@[simp] theorem State.writeReg_status (i : RegNum) (v : Word) : (s.writeReg i v).status = s.status := rfl
@[simp] theorem State.writeReg_stdin (i : RegNum) (v : Word) : (s.writeReg i v).stdin = s.stdin := rfl
@[simp] theorem State.writeReg_stdout (i : RegNum) (v : Word) : (s.writeReg i v).stdout = s.stdout := rfl
@[simp] theorem State.writeReg_draws (i : RegNum) (v : Word) : (s.writeReg i v).draws = s.draws := rfl

@[simp] theorem State.writeImpl_regs (k : ImplNum) (v : Byte) : (s.writeImpl k v).regs = s.regs := rfl
theorem State.writeImpl_impl (k : ImplNum) (v : Byte) : (s.writeImpl k v).impl = s.impl.set k.toNat v (implNum_lt k) := rfl
@[simp] theorem State.writeImpl_pc (k : ImplNum) (v : Byte) : (s.writeImpl k v).pc = s.pc := rfl
@[simp] theorem State.writeImpl_code (k : ImplNum) (v : Byte) : (s.writeImpl k v).code = s.code := rfl
@[simp] theorem State.writeImpl_data (k : ImplNum) (v : Byte) : (s.writeImpl k v).data = s.data := rfl
@[simp] theorem State.writeImpl_stack (k : ImplNum) (v : Byte) : (s.writeImpl k v).stack = s.stack := rfl
@[simp] theorem State.writeImpl_status (k : ImplNum) (v : Byte) : (s.writeImpl k v).status = s.status := rfl
@[simp] theorem State.writeImpl_stdin (k : ImplNum) (v : Byte) : (s.writeImpl k v).stdin = s.stdin := rfl
@[simp] theorem State.writeImpl_stdout (k : ImplNum) (v : Byte) : (s.writeImpl k v).stdout = s.stdout := rfl
@[simp] theorem State.writeImpl_draws (k : ImplNum) (v : Byte) : (s.writeImpl k v).draws = s.draws := rfl

@[simp] theorem State.writeCode_regs (a : Word) (v : CodeWord) : (s.writeCode a v).regs = s.regs := rfl
@[simp] theorem State.writeCode_impl (a : Word) (v : CodeWord) : (s.writeCode a v).impl = s.impl := rfl
@[simp] theorem State.writeCode_pc (a : Word) (v : CodeWord) : (s.writeCode a v).pc = s.pc := rfl
theorem State.writeCode_code (a : Word) (v : CodeWord) : (s.writeCode a v).code = Mem.write s.code a.toNat v := rfl
@[simp] theorem State.writeCode_data (a : Word) (v : CodeWord) : (s.writeCode a v).data = s.data := rfl
@[simp] theorem State.writeCode_stack (a : Word) (v : CodeWord) : (s.writeCode a v).stack = s.stack := rfl
@[simp] theorem State.writeCode_status (a : Word) (v : CodeWord) : (s.writeCode a v).status = s.status := rfl
@[simp] theorem State.writeCode_stdin (a : Word) (v : CodeWord) : (s.writeCode a v).stdin = s.stdin := rfl
@[simp] theorem State.writeCode_stdout (a : Word) (v : CodeWord) : (s.writeCode a v).stdout = s.stdout := rfl
@[simp] theorem State.writeCode_draws (a : Word) (v : CodeWord) : (s.writeCode a v).draws = s.draws := rfl

@[simp] theorem State.writeData_regs (a : Word) (v : Word) : (s.writeData a v).regs = s.regs := rfl
@[simp] theorem State.writeData_impl (a : Word) (v : Word) : (s.writeData a v).impl = s.impl := rfl
@[simp] theorem State.writeData_pc (a : Word) (v : Word) : (s.writeData a v).pc = s.pc := rfl
@[simp] theorem State.writeData_code (a : Word) (v : Word) : (s.writeData a v).code = s.code := rfl
theorem State.writeData_data (a : Word) (v : Word) : (s.writeData a v).data = Mem.write s.data a.toNat v := rfl
@[simp] theorem State.writeData_stack (a : Word) (v : Word) : (s.writeData a v).stack = s.stack := rfl
@[simp] theorem State.writeData_status (a : Word) (v : Word) : (s.writeData a v).status = s.status := rfl
@[simp] theorem State.writeData_stdin (a : Word) (v : Word) : (s.writeData a v).stdin = s.stdin := rfl
@[simp] theorem State.writeData_stdout (a : Word) (v : Word) : (s.writeData a v).stdout = s.stdout := rfl
@[simp] theorem State.writeData_draws (a : Word) (v : Word) : (s.writeData a v).draws = s.draws := rfl

@[simp] theorem State.writeStack_regs (a : Word) (v : Word) : (s.writeStack a v).regs = s.regs := rfl
@[simp] theorem State.writeStack_impl (a : Word) (v : Word) : (s.writeStack a v).impl = s.impl := rfl
@[simp] theorem State.writeStack_pc (a : Word) (v : Word) : (s.writeStack a v).pc = s.pc := rfl
@[simp] theorem State.writeStack_code (a : Word) (v : Word) : (s.writeStack a v).code = s.code := rfl
@[simp] theorem State.writeStack_data (a : Word) (v : Word) : (s.writeStack a v).data = s.data := rfl
theorem State.writeStack_stack (a : Word) (v : Word) : (s.writeStack a v).stack = Mem.write s.stack a.toNat v := rfl
@[simp] theorem State.writeStack_status (a : Word) (v : Word) : (s.writeStack a v).status = s.status := rfl
@[simp] theorem State.writeStack_stdin (a : Word) (v : Word) : (s.writeStack a v).stdin = s.stdin := rfl
@[simp] theorem State.writeStack_stdout (a : Word) (v : Word) : (s.writeStack a v).stdout = s.stdout := rfl
@[simp] theorem State.writeStack_draws (a : Word) (v : Word) : (s.writeStack a v).draws = s.draws := rfl

@[simp] theorem State.jumpTo_regs (t : Word) : (s.jumpTo t).regs = s.regs := rfl
@[simp] theorem State.jumpTo_impl (t : Word) : (s.jumpTo t).impl = s.impl := rfl
@[simp] theorem State.jumpTo_pc (t : Word) : (s.jumpTo t).pc = t := rfl
@[simp] theorem State.jumpTo_code (t : Word) : (s.jumpTo t).code = s.code := rfl
@[simp] theorem State.jumpTo_data (t : Word) : (s.jumpTo t).data = s.data := rfl
@[simp] theorem State.jumpTo_stack (t : Word) : (s.jumpTo t).stack = s.stack := rfl
@[simp] theorem State.jumpTo_status (t : Word) : (s.jumpTo t).status = s.status := rfl
@[simp] theorem State.jumpTo_stdin (t : Word) : (s.jumpTo t).stdin = s.stdin := rfl
@[simp] theorem State.jumpTo_stdout (t : Word) : (s.jumpTo t).stdout = s.stdout := rfl
@[simp] theorem State.jumpTo_draws (t : Word) : (s.jumpTo t).draws = s.draws := rfl

@[simp] theorem State.advance_regs : (s.advance).regs = s.regs := rfl
@[simp] theorem State.advance_impl : (s.advance).impl = s.impl := rfl
@[simp] theorem State.advance_pc : (s.advance).pc = s.nextPc := rfl
@[simp] theorem State.advance_code : (s.advance).code = s.code := rfl
@[simp] theorem State.advance_data : (s.advance).data = s.data := rfl
@[simp] theorem State.advance_stack : (s.advance).stack = s.stack := rfl
@[simp] theorem State.advance_status : (s.advance).status = s.status := rfl
@[simp] theorem State.advance_stdin : (s.advance).stdin = s.stdin := rfl
@[simp] theorem State.advance_stdout : (s.advance).stdout = s.stdout := rfl
@[simp] theorem State.advance_draws : (s.advance).draws = s.draws := rfl

@[simp] theorem State.setStatus_regs (v : RunStatus) : (s.setStatus v).regs = s.regs := rfl
@[simp] theorem State.setStatus_impl (v : RunStatus) : (s.setStatus v).impl = s.impl := rfl
@[simp] theorem State.setStatus_pc (v : RunStatus) : (s.setStatus v).pc = s.pc := rfl
@[simp] theorem State.setStatus_code (v : RunStatus) : (s.setStatus v).code = s.code := rfl
@[simp] theorem State.setStatus_data (v : RunStatus) : (s.setStatus v).data = s.data := rfl
@[simp] theorem State.setStatus_stack (v : RunStatus) : (s.setStatus v).stack = s.stack := rfl
@[simp] theorem State.setStatus_status (v : RunStatus) : (s.setStatus v).status = v := rfl
@[simp] theorem State.setStatus_stdin (v : RunStatus) : (s.setStatus v).stdin = s.stdin := rfl
@[simp] theorem State.setStatus_stdout (v : RunStatus) : (s.setStatus v).stdout = s.stdout := rfl
@[simp] theorem State.setStatus_draws (v : RunStatus) : (s.setStatus v).draws = s.draws := rfl

@[simp] theorem State.output_regs (c : Byte) : (s.output c).regs = s.regs := rfl
@[simp] theorem State.output_impl (c : Byte) : (s.output c).impl = s.impl := rfl
@[simp] theorem State.output_pc (c : Byte) : (s.output c).pc = s.pc := rfl
@[simp] theorem State.output_code (c : Byte) : (s.output c).code = s.code := rfl
@[simp] theorem State.output_data (c : Byte) : (s.output c).data = s.data := rfl
@[simp] theorem State.output_stack (c : Byte) : (s.output c).stack = s.stack := rfl
@[simp] theorem State.output_status (c : Byte) : (s.output c).status = s.status := rfl
@[simp] theorem State.output_stdin (c : Byte) : (s.output c).stdin = s.stdin := rfl
@[simp] theorem State.output_stdout (c : Byte) : (s.output c).stdout = s.stdout ++ [c] := rfl
@[simp] theorem State.output_draws (c : Byte) : (s.output c).draws = s.draws := rfl

@[simp] theorem State.setStdin_regs (i : InputStream) : (s.setStdin i).regs = s.regs := rfl
@[simp] theorem State.setStdin_impl (i : InputStream) : (s.setStdin i).impl = s.impl := rfl
@[simp] theorem State.setStdin_pc (i : InputStream) : (s.setStdin i).pc = s.pc := rfl
@[simp] theorem State.setStdin_code (i : InputStream) : (s.setStdin i).code = s.code := rfl
@[simp] theorem State.setStdin_data (i : InputStream) : (s.setStdin i).data = s.data := rfl
@[simp] theorem State.setStdin_stack (i : InputStream) : (s.setStdin i).stack = s.stack := rfl
@[simp] theorem State.setStdin_status (i : InputStream) : (s.setStdin i).status = s.status := rfl
@[simp] theorem State.setStdin_stdin (i : InputStream) : (s.setStdin i).stdin = i := rfl
@[simp] theorem State.setStdin_stdout (i : InputStream) : (s.setStdin i).stdout = s.stdout := rfl
@[simp] theorem State.setStdin_draws (i : InputStream) : (s.setStdin i).draws = s.draws := rfl

@[simp] theorem State.countDraw_regs : (s.countDraw).regs = s.regs := rfl
@[simp] theorem State.countDraw_impl : (s.countDraw).impl = s.impl := rfl
@[simp] theorem State.countDraw_pc : (s.countDraw).pc = s.pc := rfl
@[simp] theorem State.countDraw_code : (s.countDraw).code = s.code := rfl
@[simp] theorem State.countDraw_data : (s.countDraw).data = s.data := rfl
@[simp] theorem State.countDraw_stack : (s.countDraw).stack = s.stack := rfl
@[simp] theorem State.countDraw_status : (s.countDraw).status = s.status := rfl
@[simp] theorem State.countDraw_stdin : (s.countDraw).stdin = s.stdin := rfl
@[simp] theorem State.countDraw_stdout : (s.countDraw).stdout = s.stdout := rfl
@[simp] theorem State.countDraw_draws : (s.countDraw).draws = s.draws + 1 := rfl

/-! ### Accessors after an update of another field -/

@[simp] theorem State.readImpl_writeReg (i : RegNum) (v : Word) (j : ImplNum) : (s.writeReg i v).readImpl j = s.readImpl j := rfl
@[simp] theorem State.readCode_writeReg (i : RegNum) (v : Word) (b : Word) : (s.writeReg i v).readCode b = s.readCode b := rfl
@[simp] theorem State.readData_writeReg (i : RegNum) (v : Word) (b : Word) : (s.writeReg i v).readData b = s.readData b := rfl
@[simp] theorem State.readStack_writeReg (i : RegNum) (v : Word) (b : Word) : (s.writeReg i v).readStack b = s.readStack b := rfl
@[simp] theorem State.spIdx_writeReg (i : RegNum) (v : Word) : (s.writeReg i v).spIdx = s.spIdx := rfl
@[simp] theorem State.predIdx_writeReg (i : RegNum) (v : Word) : (s.writeReg i v).predIdx = s.predIdx := rfl
@[simp] theorem State.nextPc_writeReg (i : RegNum) (v : Word) : (s.writeReg i v).nextPc = s.nextPc := rfl
@[simp] theorem State.link_writeReg (i : RegNum) (v : Word) : (s.writeReg i v).link = s.link := rfl

@[simp] theorem State.readReg_writeImpl (k : ImplNum) (v : Byte) (r : RegNum) : (s.writeImpl k v).readReg r = s.readReg r := rfl
@[simp] theorem State.readCode_writeImpl (k : ImplNum) (v : Byte) (b : Word) : (s.writeImpl k v).readCode b = s.readCode b := rfl
@[simp] theorem State.readData_writeImpl (k : ImplNum) (v : Byte) (b : Word) : (s.writeImpl k v).readData b = s.readData b := rfl
@[simp] theorem State.readStack_writeImpl (k : ImplNum) (v : Byte) (b : Word) : (s.writeImpl k v).readStack b = s.readStack b := rfl
@[simp] theorem State.nextPc_writeImpl (k : ImplNum) (v : Byte) : (s.writeImpl k v).nextPc = s.nextPc := rfl
@[simp] theorem State.link_writeImpl (k : ImplNum) (v : Byte) : (s.writeImpl k v).link = s.link := rfl

@[simp] theorem State.readReg_writeCode (a : Word) (v : CodeWord) (r : RegNum) : (s.writeCode a v).readReg r = s.readReg r := rfl
@[simp] theorem State.readImpl_writeCode (a : Word) (v : CodeWord) (j : ImplNum) : (s.writeCode a v).readImpl j = s.readImpl j := rfl
@[simp] theorem State.readData_writeCode (a : Word) (v : CodeWord) (b : Word) : (s.writeCode a v).readData b = s.readData b := rfl
@[simp] theorem State.readStack_writeCode (a : Word) (v : CodeWord) (b : Word) : (s.writeCode a v).readStack b = s.readStack b := rfl
@[simp] theorem State.spIdx_writeCode (a : Word) (v : CodeWord) : (s.writeCode a v).spIdx = s.spIdx := rfl
@[simp] theorem State.predIdx_writeCode (a : Word) (v : CodeWord) : (s.writeCode a v).predIdx = s.predIdx := rfl
@[simp] theorem State.nextPc_writeCode (a : Word) (v : CodeWord) : (s.writeCode a v).nextPc = s.nextPc := rfl
@[simp] theorem State.link_writeCode (a : Word) (v : CodeWord) : (s.writeCode a v).link = s.link := rfl

@[simp] theorem State.readReg_writeData (a : Word) (v : Word) (r : RegNum) : (s.writeData a v).readReg r = s.readReg r := rfl
@[simp] theorem State.readImpl_writeData (a : Word) (v : Word) (j : ImplNum) : (s.writeData a v).readImpl j = s.readImpl j := rfl
@[simp] theorem State.readCode_writeData (a : Word) (v : Word) (b : Word) : (s.writeData a v).readCode b = s.readCode b := rfl
@[simp] theorem State.readStack_writeData (a : Word) (v : Word) (b : Word) : (s.writeData a v).readStack b = s.readStack b := rfl
@[simp] theorem State.spIdx_writeData (a : Word) (v : Word) : (s.writeData a v).spIdx = s.spIdx := rfl
@[simp] theorem State.predIdx_writeData (a : Word) (v : Word) : (s.writeData a v).predIdx = s.predIdx := rfl
@[simp] theorem State.nextPc_writeData (a : Word) (v : Word) : (s.writeData a v).nextPc = s.nextPc := rfl
@[simp] theorem State.link_writeData (a : Word) (v : Word) : (s.writeData a v).link = s.link := rfl

@[simp] theorem State.readReg_writeStack (a : Word) (v : Word) (r : RegNum) : (s.writeStack a v).readReg r = s.readReg r := rfl
@[simp] theorem State.readImpl_writeStack (a : Word) (v : Word) (j : ImplNum) : (s.writeStack a v).readImpl j = s.readImpl j := rfl
@[simp] theorem State.readCode_writeStack (a : Word) (v : Word) (b : Word) : (s.writeStack a v).readCode b = s.readCode b := rfl
@[simp] theorem State.readData_writeStack (a : Word) (v : Word) (b : Word) : (s.writeStack a v).readData b = s.readData b := rfl
@[simp] theorem State.spIdx_writeStack (a : Word) (v : Word) : (s.writeStack a v).spIdx = s.spIdx := rfl
@[simp] theorem State.predIdx_writeStack (a : Word) (v : Word) : (s.writeStack a v).predIdx = s.predIdx := rfl
@[simp] theorem State.nextPc_writeStack (a : Word) (v : Word) : (s.writeStack a v).nextPc = s.nextPc := rfl
@[simp] theorem State.link_writeStack (a : Word) (v : Word) : (s.writeStack a v).link = s.link := rfl

@[simp] theorem State.readReg_jumpTo (t : Word) (r : RegNum) : (s.jumpTo t).readReg r = s.readReg r := rfl
@[simp] theorem State.readImpl_jumpTo (t : Word) (j : ImplNum) : (s.jumpTo t).readImpl j = s.readImpl j := rfl
@[simp] theorem State.readCode_jumpTo (t : Word) (b : Word) : (s.jumpTo t).readCode b = s.readCode b := rfl
@[simp] theorem State.readData_jumpTo (t : Word) (b : Word) : (s.jumpTo t).readData b = s.readData b := rfl
@[simp] theorem State.readStack_jumpTo (t : Word) (b : Word) : (s.jumpTo t).readStack b = s.readStack b := rfl
@[simp] theorem State.spIdx_jumpTo (t : Word) : (s.jumpTo t).spIdx = s.spIdx := rfl
@[simp] theorem State.predIdx_jumpTo (t : Word) : (s.jumpTo t).predIdx = s.predIdx := rfl

@[simp] theorem State.readReg_advance (r : RegNum) : (s.advance).readReg r = s.readReg r := rfl
@[simp] theorem State.readImpl_advance (j : ImplNum) : (s.advance).readImpl j = s.readImpl j := rfl
@[simp] theorem State.readCode_advance (b : Word) : (s.advance).readCode b = s.readCode b := rfl
@[simp] theorem State.readData_advance (b : Word) : (s.advance).readData b = s.readData b := rfl
@[simp] theorem State.readStack_advance (b : Word) : (s.advance).readStack b = s.readStack b := rfl
@[simp] theorem State.spIdx_advance : (s.advance).spIdx = s.spIdx := rfl
@[simp] theorem State.predIdx_advance : (s.advance).predIdx = s.predIdx := rfl

@[simp] theorem State.readReg_setStatus (v : RunStatus) (r : RegNum) : (s.setStatus v).readReg r = s.readReg r := rfl
@[simp] theorem State.readImpl_setStatus (v : RunStatus) (j : ImplNum) : (s.setStatus v).readImpl j = s.readImpl j := rfl
@[simp] theorem State.readCode_setStatus (v : RunStatus) (b : Word) : (s.setStatus v).readCode b = s.readCode b := rfl
@[simp] theorem State.readData_setStatus (v : RunStatus) (b : Word) : (s.setStatus v).readData b = s.readData b := rfl
@[simp] theorem State.readStack_setStatus (v : RunStatus) (b : Word) : (s.setStatus v).readStack b = s.readStack b := rfl
@[simp] theorem State.spIdx_setStatus (v : RunStatus) : (s.setStatus v).spIdx = s.spIdx := rfl
@[simp] theorem State.predIdx_setStatus (v : RunStatus) : (s.setStatus v).predIdx = s.predIdx := rfl
@[simp] theorem State.nextPc_setStatus (v : RunStatus) : (s.setStatus v).nextPc = s.nextPc := rfl
@[simp] theorem State.link_setStatus (v : RunStatus) : (s.setStatus v).link = s.link := rfl

@[simp] theorem State.readReg_output (c : Byte) (r : RegNum) : (s.output c).readReg r = s.readReg r := rfl
@[simp] theorem State.readImpl_output (c : Byte) (j : ImplNum) : (s.output c).readImpl j = s.readImpl j := rfl
@[simp] theorem State.readCode_output (c : Byte) (b : Word) : (s.output c).readCode b = s.readCode b := rfl
@[simp] theorem State.readData_output (c : Byte) (b : Word) : (s.output c).readData b = s.readData b := rfl
@[simp] theorem State.readStack_output (c : Byte) (b : Word) : (s.output c).readStack b = s.readStack b := rfl
@[simp] theorem State.spIdx_output (c : Byte) : (s.output c).spIdx = s.spIdx := rfl
@[simp] theorem State.predIdx_output (c : Byte) : (s.output c).predIdx = s.predIdx := rfl
@[simp] theorem State.nextPc_output (c : Byte) : (s.output c).nextPc = s.nextPc := rfl
@[simp] theorem State.link_output (c : Byte) : (s.output c).link = s.link := rfl

@[simp] theorem State.readReg_setStdin (i : InputStream) (r : RegNum) : (s.setStdin i).readReg r = s.readReg r := rfl
@[simp] theorem State.readImpl_setStdin (i : InputStream) (j : ImplNum) : (s.setStdin i).readImpl j = s.readImpl j := rfl
@[simp] theorem State.readCode_setStdin (i : InputStream) (b : Word) : (s.setStdin i).readCode b = s.readCode b := rfl
@[simp] theorem State.readData_setStdin (i : InputStream) (b : Word) : (s.setStdin i).readData b = s.readData b := rfl
@[simp] theorem State.readStack_setStdin (i : InputStream) (b : Word) : (s.setStdin i).readStack b = s.readStack b := rfl
@[simp] theorem State.spIdx_setStdin (i : InputStream) : (s.setStdin i).spIdx = s.spIdx := rfl
@[simp] theorem State.predIdx_setStdin (i : InputStream) : (s.setStdin i).predIdx = s.predIdx := rfl
@[simp] theorem State.nextPc_setStdin (i : InputStream) : (s.setStdin i).nextPc = s.nextPc := rfl
@[simp] theorem State.link_setStdin (i : InputStream) : (s.setStdin i).link = s.link := rfl

@[simp] theorem State.readReg_countDraw (r : RegNum) : (s.countDraw).readReg r = s.readReg r := rfl
@[simp] theorem State.readImpl_countDraw (j : ImplNum) : (s.countDraw).readImpl j = s.readImpl j := rfl
@[simp] theorem State.readCode_countDraw (b : Word) : (s.countDraw).readCode b = s.readCode b := rfl
@[simp] theorem State.readData_countDraw (b : Word) : (s.countDraw).readData b = s.readData b := rfl
@[simp] theorem State.readStack_countDraw (b : Word) : (s.countDraw).readStack b = s.readStack b := rfl
@[simp] theorem State.spIdx_countDraw : (s.countDraw).spIdx = s.spIdx := rfl
@[simp] theorem State.predIdx_countDraw : (s.countDraw).predIdx = s.predIdx := rfl
@[simp] theorem State.nextPc_countDraw : (s.countDraw).nextPc = s.nextPc := rfl
@[simp] theorem State.link_countDraw : (s.countDraw).link = s.link := rfl

/-! ### Reads after writes of the same kind -/

/-- A register reads what was written to it, and every other register what it held (R22). -/
@[simp] theorem State.readReg_writeReg (i : RegNum) (v : Word) (j : RegNum) :
    (s.writeReg i v).readReg j = if j = i then v else s.readReg j := by
  simp [State.readReg, State.writeReg, Vector.getElem_set, BitVec.toNat_inj, eq_comm]

/-- The same of the implicit registers (R27). -/
@[simp] theorem State.readImpl_writeImpl (k : ImplNum) (v : Byte) (j : ImplNum) :
    (s.writeImpl k v).readImpl j = if j = k then v else s.readImpl j := by
  simp [State.readImpl, State.writeImpl, Vector.getElem_set, BitVec.toNat_inj, eq_comm]

/-- A code word reads what was written to it, and every other what it held (R54, R60). -/
@[simp] theorem State.readCode_writeCode (a : Word) (v : CodeWord) (b : Word) :
    (s.writeCode a v).readCode b = if b = a then v else s.readCode b := by
  simp [State.readCode, State.writeCode, Mem.read_write, BitVec.toNat_inj]

@[simp] theorem State.readData_writeData (a v b : Word) :
    (s.writeData a v).readData b = if b = a then v else s.readData b := by
  simp [State.readData, State.writeData, Mem.read_write, BitVec.toNat_inj]

@[simp] theorem State.readStack_writeStack (a v b : Word) :
    (s.writeStack a v).readStack b = if b = a then v else s.readStack b := by
  simp [State.readStack, State.writeStack, Mem.read_write, BitVec.toNat_inj]

/-! ### The stack pointer and the predicate by their decided indices (D10) -/

theorem State.spIdx_eq : s.spIdx = s.readImpl 1 := rfl
theorem State.predIdx_eq : s.predIdx = s.readImpl 0 := rfl
theorem State.link_eq : s.link = s.pc + 1 := rfl
theorem State.nextPc_eq : s.nextPc = s.pc + 1 := rfl

end Sys2Proof.Machine
end

