-- ==== Sys2Proof/Laws/Ops.lean ====
section
/-!
SUPPORT. What each shared operation answers, and what the updates leave unchanged: one lemma each, for the claims to
cite.
-/

namespace Sys2Proof.Machine

/-! ### Shared operations -/

/-- A panic changes the status alone (R252). -/
theorem panic_eq (r : PanicReason) (s : State) : panic r s = .next { s with status := .panicked r } := rfl

theorem divideBack_zero {d : RegNum} {b v : Word} {s : State} (h : b = 0) :
    divideBack d b v s = .next { s with status := .panicked .divideByZero } := by simp [divideBack, h, panic_eq]

theorem divideBack_nonzero {d : RegNum} {b v : Word} {s : State} (h : b ≠ 0) :
    divideBack d b v s = writeBack d v s := if_neg h

/-- All that a division can answer: the panic of a zero divisor, or the write-back. -/
theorem divideBack_cases (d : RegNum) (b v : Word) (s : State) :
    (b = 0 ∧ divideBack d b v s = .next { s with status := .panicked .divideByZero }) ∨
    (b ≠ 0 ∧ divideBack d b v s = .next (s.writeReg d v).advance) := by
  by_cases hb : b = 0
  · exact .inl ⟨hb, divideBack_zero hb⟩
  · exact .inr ⟨hb, divideBack_nonzero hb⟩

/-- The decided link store: always (R182, D18). -/
@[simp] theorem State.writeLink_eq (s : State) (c : Bool) (l : RegNum) :
    s.writeLink c l = s.writeReg l s.link := by simp [State.writeLink]

theorem State.branch_pc (s : State) (c : Bool) (n : Word) :
    (s.branch c n).pc = if c then n else s.nextPc := by cases c <;> rfl

/-- A branch is a write of `pc`. -/
theorem State.branch_eq (s : State) (c : Bool) (n : Word) :
    s.branch c n = s.jumpTo (if c then n else s.nextPc) := by cases c <;> rfl

theorem advanced_of_pc {s t : State} (h : t.pc = s.pc + 1) : Advanced s t := by
  simp [Advanced, h]

/-! ### What the updates leave unchanged -/

theorem changesOnly_jumpTo {f : Footprint} {s t : State} (h : ChangesOnly f s t) (n : Word) :
    ChangesOnly f s (t.jumpTo n) := ⟨h.1, h.2, h.3, h.4, h.5, h.6, h.7, h.8, h.9⟩

theorem changesOnly_advance {f : Footprint} {s t : State} (h : ChangesOnly f s t) : ChangesOnly f s t.advance :=
  changesOnly_jumpTo h _

theorem changesOnly_rfl (f : Footprint) (s : State) : ChangesOnly f s s := by
  constructor <;> intros <;> rfl

theorem changesOnly_writeReg {f : Footprint} {s t : State} (h : ChangesOnly f s t) (d : RegNum) (v : Word)
    (hd : d ∈ f.regs) : ChangesOnly f s (t.writeReg d v) := by
  refine ⟨fun r hr => ?_, h.2, h.3, h.4, h.5, h.6, h.7, h.8, h.9⟩
  have : r ≠ d := fun e => hr (e ▸ hd)
  simp [this, h.1 r hr]

theorem changesOnly_writeImpl {f : Footprint} {s t : State} (h : ChangesOnly f s t) (k : ImplNum) (v : Byte)
    (hk : k ∈ f.impl) : ChangesOnly f s (t.writeImpl k v) := by
  refine ⟨h.1, fun j hj => ?_, h.3, h.4, h.5, h.6, h.7, h.8, h.9⟩
  have : j ≠ k := fun e => hj (e ▸ hk)
  simp [this, h.2 j hj]

theorem changesOnly_writeCode {f : Footprint} {s t : State} (h : ChangesOnly f s t) (a : Word) (v : CodeWord)
    (ha : a ∈ f.code) : ChangesOnly f s (t.writeCode a v) := by
  refine ⟨h.1, h.2, fun b hb => ?_, h.4, h.5, h.6, h.7, h.8, h.9⟩
  have : b ≠ a := fun e => hb (e ▸ ha)
  simp [this, h.3 b hb]

theorem changesOnly_writeData {f : Footprint} {s t : State} (h : ChangesOnly f s t) (a v : Word)
    (ha : a ∈ f.data) : ChangesOnly f s (t.writeData a v) := by
  refine ⟨h.1, h.2, h.3, fun b hb => ?_, h.5, h.6, h.7, h.8, h.9⟩
  have : b ≠ a := fun e => hb (e ▸ ha)
  simp [this, h.4 b hb]

theorem changesOnly_writeStack {f : Footprint} {s t : State} (h : ChangesOnly f s t) (a v : Word)
    (ha : a ∈ f.stack) : ChangesOnly f s (t.writeStack a v) := by
  refine ⟨h.1, h.2, h.3, h.4, fun b hb => ?_, h.6, h.7, h.8, h.9⟩
  have : b ≠ a := fun e => hb (e ▸ ha)
  simp [this, h.5 b hb]

theorem changesOnly_setStatus {f : Footprint} {s t : State} (h : ChangesOnly f s t) (v : RunStatus)
    (hf : f.status = true) : ChangesOnly f s (t.setStatus v) :=
  ⟨h.1, h.2, h.3, h.4, h.5, fun e => by simp [hf] at e, h.7, h.8, h.9⟩

theorem changesOnly_setStdin {f : Footprint} {s t : State} (h : ChangesOnly f s t) (i : InputStream)
    (hf : f.stdin = true) : ChangesOnly f s (t.setStdin i) :=
  ⟨h.1, h.2, h.3, h.4, h.5, h.6, fun e => by simp [hf] at e, h.8, h.9⟩

theorem changesOnly_output {f : Footprint} {s t : State} (h : ChangesOnly f s t) (c : Byte)
    (hf : f.stdout = true) : ChangesOnly f s (t.output c) :=
  ⟨h.1, h.2, h.3, h.4, h.5, h.6, h.7, fun e => by simp [hf] at e, h.9⟩

theorem changesOnly_countDraw {f : Footprint} {s t : State} (h : ChangesOnly f s t)
    (hf : f.draws = true) : ChangesOnly f s t.countDraw :=
  ⟨h.1, h.2, h.3, h.4, h.5, h.6, h.7, h.8, fun e => by simp [hf] at e⟩

/-! ### The canonical form of the memories -/

theorem State.wf_iff (s : State) :
    s.wf = true ↔ Mem.wf s.code = true ∧ Mem.wf s.data = true ∧ Mem.wf s.stack = true := by
  simp only [State.wf, Bool.and_eq_true, and_assoc]

theorem State.wf_writeCode {s : State} (a : Word) (v : CodeWord) (h : s.wf = true) : (s.writeCode a v).wf = true := by
  rw [State.wf_iff] at h ⊢; exact ⟨Mem.wf_write _ a.isLt h.1, h.2⟩

theorem State.wf_writeData {s : State} (a v : Word) (h : s.wf = true) : (s.writeData a v).wf = true := by
  rw [State.wf_iff] at h ⊢; exact ⟨h.1, Mem.wf_write _ a.isLt h.2.1, h.2.2⟩

theorem State.wf_writeStack {s : State} (a v : Word) (h : s.wf = true) : (s.writeStack a v).wf = true := by
  rw [State.wf_iff] at h ⊢; exact ⟨h.1, h.2.1, Mem.wf_write _ a.isLt h.2.2⟩

/-- Loading keeps it, whatever is loaded and wherever. -/
theorem State.wf_loadCode {s : State} (a : Word) (ws : List CodeWord) (h : s.wf = true) :
    (s.loadCode a ws).wf = true := by
  induction ws generalizing s a with
  | nil => exact h
  | cons w ws ih => exact ih _ (State.wf_writeCode a w h)

theorem State.wf_loadData {s : State} (a : Word) (vs : List Word) (h : s.wf = true) :
    (s.loadData a vs).wf = true := by
  induction vs generalizing s a with
  | nil => exact h
  | cons v vs ih => exact ih _ (State.wf_writeData a v h)

/-- The memories of `State.reset` list nothing. -/
theorem reset_memories :
    State.reset.code = [] ∧ State.reset.data = [] ∧ State.reset.stack = [] := ⟨rfl, rfl, rfl⟩

/-! ### Completion from a shared operation -/

/-- An instruction whose meaning is a write-back writes that register and nothing else. -/
theorem writesReg_of_writeBack {i : Instr} {s : State} {d : RegNum} {v : Word} {n : Nat}
    (h : exec i s = writeBack d v s) (hn : v.toNat = n) : WritesReg i s d n :=
  ⟨(s.writeReg d v).advance, h, by simp [hn], advanced_of_pc rfl,
    changesOnly_advance (changesOnly_writeReg (changesOnly_rfl _ s) d v (by simp))⟩

end Sys2Proof.Machine
end

