-- ==== Sys2Proof/Laws/Step.lean ====
section
/-!
SUPPORT. What one step can do, said once (R11, R32).
-/

namespace Sys2Proof.Machine

theorem step_of_halted {s : State} (h : s.status = .halted) : step s = .fault .halted := by
  simp [step, h, RunStatus.stopped]

theorem step_of_panicked {s : State} {r : PanicReason} (h : s.status = .panicked r) :
    step s = .fault (.panicked r) := by
  simp [step, h, RunStatus.stopped]

/-- A running machine fetches, decodes and performs. -/
theorem step_of_running {s : State} (h : s.status = .running) :
    step s = match decode s.fetch with
      | .undefined r => .next { s with status := .panicked r }
      | .instr i => exec i s := by
  simp only [step, h, RunStatus.stopped]; cases decode s.fetch <;> rfl

/-- The inversion of a step: the machine was running, and either the word was undefined and its panic was taken, or
its instruction was performed. -/
theorem step_next {s t : State} (h : step s = .next t) :
    s.status = .running ∧
      ((∃ r, decode s.fetch = .undefined r ∧ t = { s with status := .panicked r }) ∨
       (∃ i, decode s.fetch = .instr i ∧ exec i s = .next t)) := by
  cases hs : s.status with
  | halted => rw [step_of_halted hs] at h; cases h
  | panicked r => rw [step_of_panicked hs] at h; cases h
  | running =>
    refine ⟨rfl, ?_⟩
    rw [step_of_running hs] at h
    cases hd : decode s.fetch with
    | undefined r => rw [hd] at h; exact .inl ⟨r, rfl, by cases h; rfl⟩
    | instr i => rw [hd] at h; exact .inr ⟨i, rfl, h⟩

/-- A run of one step more is a step and a run. -/
theorem coreRun_succ (M : Host.Core) (n : Nat) (s : M.State) {t : M.State} (h : M.run (n + 1) s = .next t) :
    ∃ u, M.step s = .next u ∧ M.run n u = .next t := by
  unfold Host.Core.run at h
  cases hs : M.step s with
  | fault r => rw [hs] at h; cases h
  | refused r => rw [hs] at h; cases h
  | next u => rw [hs] at h; exact ⟨u, rfl, h⟩

theorem run_succ_next {n : Nat} {s t : State} (h : core.run (n + 1) s = .next t) :
    ∃ u, step s = .next u ∧ core.run n u = .next t := coreRun_succ core n s h

end Sys2Proof.Machine
end

