-- ==== Sys2Proof/Laws/Exec.lean ====
section
/-!
SUPPORT. What an instruction can do, said once: the outcomes of the system call, and what every other instruction
leaves unchanged. The claims about all instructions cite these and do not unfold `exec`.
-/

namespace Sys2Proof.Machine

/-- All that a system call can answer (R231 to R235). -/
theorem system_cases (n : Byte) (ra rb : RegNum) (s : State) :
  (n = 1 ∧ exec (.system n ra rb) s = .next { s with status := .halted }) ∨
  (n = 2 ∧ ∃ c rest, s.stdin.pending = c :: rest ∧ 
      exec (.system n ra rb) s = writeBack ra (zext16 c) (s.setStdin { s.stdin with pending := rest })) ∨
  (n = 2 ∧ s.stdin.pending = [] ∧ s.stdin.closed = true ∧
      exec (.system n ra rb) s = writeBack ra (Config.getcEof s.draws) s.countDraw) ∨
  (n = 2 ∧ s.stdin.pending = [] ∧ s.stdin.closed = false ∧
      exec (.system n ra rb) s = .fault .awaitingInput) ∨
  (n = 3 ∧ exec (.system n ra rb) s = .next (s.output (lowByte (s.readReg ra))).advance) ∨
  (n = 4 ∧ exec (.system n ra rb) s = .next { s with status := .panicked .requested }) ∨
  ((n.toNat = 0 ∨ 5 ≤ n.toNat) ∧
      exec (.system n ra rb) s = .next { s with status := .panicked .undefinedSystemOperation }) := by
  by_cases h1 : n = 1
  · subst h1; exact .inl ⟨rfl, rfl⟩
  by_cases h2 : n = 2
  · subst h2
    cases hp : s.stdin.pending with
    | cons c rest => exact .inr (.inl ⟨rfl, c, rest, rfl, by simp [exec, execSystem, systemGetc, hp]⟩)
    | nil =>
      cases hc : s.stdin.closed with
      | true => exact .inr (.inr (.inl ⟨rfl, rfl, rfl, by simp [exec, execSystem, systemGetc, hp, hc]⟩))
      | false => exact .inr (.inr (.inr (.inl ⟨rfl, rfl, rfl, by simp [exec, execSystem, systemGetc, hp, hc]⟩)))
  by_cases h3 : n = 3
  · subst h3; exact .inr (.inr (.inr (.inr (.inl ⟨rfl, rfl⟩))))
  by_cases h4 : n = 4
  · subst h4; exact .inr (.inr (.inr (.inr (.inr (.inl ⟨rfl, rfl⟩)))))
  · refine .inr (.inr (.inr (.inr (.inr (.inr ⟨?_, ?_⟩)))))
    · have := n.isLt
      by_contra hh
      have : n.toNat = 1 ∨ n.toNat = 2 ∨ n.toNat = 3 ∨ n.toNat = 4 := by omega
      rcases this with e | e | e | e <;> [apply h1; apply h2; apply h3; apply h4] <;> exact BitVec.eq_of_toNat_eq e
    · simp only [exec, execSystem, h1, h2, h3, h4, if_false]; rfl

/-- An instruction that neither panics nor is a system call: status, streams and draws stay, each memory and the
implicit registers change only by the instructions that write them, all but the jumps go on to the next address, and
the memories stay canonical. -/
def Quiet (i : Instr) (s t : State) : Prop :=
  t.status = s.status ∧ t.stdin = s.stdin ∧ t.stdout = s.stdout ∧ t.draws = s.draws ∧
  (i.op ≠ .stc → t.code = s.code) ∧ (i.op ∉ [Op.st, .memset] → t.data = s.data) ∧
  (i.op ∉ [Op.push, .pushi] → t.stack = s.stack) ∧
  (i.op ∉ [Op.implicitSet, .implicitIndirectSet] → t.impl = s.impl) ∧
  (isJump i = false → t.pc = s.pc + 1) ∧ (s.wf = true → t.wf = true)

/-- All that an instruction other than the system call can answer. -/
theorem exec_quiet (i : Instr) (s : State) (h : i.op ≠ .system) :
    (∃ t, exec i s = .next t ∧ Quiet i s t) ∨
    (i.op ∈ [Op.div, .rem, .divi, .remi] ∧ exec i s = .next { s with status := .panicked .divideByZero }) := by
  cases i with
  | add | sub | mul | shl | shr | and | or | xor | addi | subi | muli | shli | shri | not | move | set | ld | ldi
  | eq | ne | lt | gt | le | ge | eqi | nei | lti | gti | lei | gei | implicitGet | implicitIndirectGet
  | swap | ldc | pop =>
    exact .inl ⟨_, rfl, rfl, rfl, rfl, rfl,
      fun _ => rfl, fun _ => rfl, fun _ => rfl, fun _ => rfl, fun _ => rfl, fun h => h⟩
  | implicitSet | implicitIndirectSet =>
    exact .inl ⟨_, rfl, rfl, rfl, rfl, rfl,
      fun _ => rfl, fun _ => rfl, fun _ => rfl, fun h => absurd (by simp [Instr.op]) h, fun _ => rfl, fun h => h⟩
  | st a | memset a =>
    exact .inl ⟨_, rfl, rfl, rfl, rfl, rfl,
      fun _ => rfl, fun h => absurd (by simp [Instr.op]) h, fun _ => rfl, fun _ => rfl, fun _ => rfl, State.wf_writeData _ _⟩
  | stc a =>
    exact .inl ⟨_, rfl, rfl, rfl, rfl, rfl,
      fun h => absurd rfl h, fun _ => rfl, fun _ => rfl, fun _ => rfl, fun _ => rfl, State.wf_writeCode _ _⟩
  | push | pushi =>
    exact .inl ⟨_, rfl, rfl, rfl, rfl, rfl,
      fun _ => rfl, fun _ => rfl, fun h => absurd (by simp [Instr.op]) h, fun _ => rfl, fun _ => rfl, State.wf_writeStack _ _⟩
  | div d a b =>
    rcases divideBack_cases d (s.readReg b) (quotient (s.readReg a) (s.readReg b)) s with ⟨_, he⟩ | ⟨_, he⟩
    · exact .inr ⟨by simp [Instr.op], he⟩
    · exact .inl ⟨_, he, rfl, rfl, rfl, rfl,
        fun _ => rfl, fun _ => rfl, fun _ => rfl, fun _ => rfl, fun _ => rfl, fun h => h⟩
  | rem d a b =>
    rcases divideBack_cases d (s.readReg b) (remainder (s.readReg a) (s.readReg b)) s with ⟨_, he⟩ | ⟨_, he⟩
    · exact .inr ⟨by simp [Instr.op], he⟩
    · exact .inl ⟨_, he, rfl, rfl, rfl, rfl,
        fun _ => rfl, fun _ => rfl, fun _ => rfl, fun _ => rfl, fun _ => rfl, fun h => h⟩
  | divi d a n =>
    rcases divideBack_cases d (zext16 n) (quotient (s.readReg a) (zext16 n)) s with ⟨_, he⟩ | ⟨_, he⟩
    · exact .inr ⟨by simp [Instr.op], he⟩
    · exact .inl ⟨_, he, rfl, rfl, rfl, rfl,
        fun _ => rfl, fun _ => rfl, fun _ => rfl, fun _ => rfl, fun _ => rfl, fun h => h⟩
  | remi d a n =>
    rcases divideBack_cases d (zext16 n) (remainder (s.readReg a) (zext16 n)) s with ⟨_, he⟩ | ⟨_, he⟩
    · exact .inr ⟨by simp [Instr.op], he⟩
    · exact .inl ⟨_, he, rfl, rfl, rfl, rfl,
        fun _ => rfl, fun _ => rfl, fun _ => rfl, fun _ => rfl, fun _ => rfl, fun h => h⟩
  | j | jr | ift | iff =>
    exact .inl ⟨_, rfl, rfl, rfl, rfl, rfl,
      fun _ => rfl, fun _ => rfl, fun _ => rfl, fun _ => rfl, fun h => Bool.noConfusion (show true = false from h), fun h => h⟩
  | jt | jf | jrt | jrf =>
    refine .inl ⟨_, rfl, ?_⟩
    rw [State.branch_eq]
    exact ⟨rfl, rfl, rfl, rfl, fun _ => rfl, fun _ => rfl, fun _ => rfl, fun _ => rfl,
      fun h => Bool.noConfusion (show true = false from h), fun h => h⟩
  | jl | jrl | iftl | iffl =>
    refine .inl ⟨_, rfl, ?_⟩
    rw [State.writeLink_eq]
    exact ⟨rfl, rfl, rfl, rfl, fun _ => rfl, fun _ => rfl, fun _ => rfl, fun _ => rfl,
      fun h => Bool.noConfusion (show true = false from h), fun h => h⟩
  | jtl | jfl | jrtl | jrfl =>
    refine .inl ⟨_, rfl, ?_⟩
    rw [State.writeLink_eq, State.branch_eq]
    exact ⟨rfl, rfl, rfl, rfl, fun _ => rfl, fun _ => rfl, fun _ => rfl, fun _ => rfl,
      fun h => Bool.noConfusion (show true = false from h), fun h => h⟩
  | system => exact absurd rfl h

/-- The inversion of its next states. -/
theorem exec_next_quiet {i : Instr} {s t : State} (h : i.op ≠ .system) (ht : exec i s = .next t) :
    Quiet i s t ∨ (i.op ∈ [Op.div, .rem, .divi, .remi] ∧ t = { s with status := .panicked .divideByZero }) := by
  rcases exec_quiet i s h with ⟨u, hu, hq⟩ | ⟨ho, hu⟩
  · rw [hu] at ht; cases ht; exact .inl hq
  · rw [hu] at ht; cases ht; exact .inr ⟨ho, rfl⟩

/-- The one instruction of the operation `system`. -/
theorem is_system {i : Instr} (h : i.op = .system) : ∃ n ra rb, i = .system n ra rb := by
  cases i with
  | system n ra rb => exact ⟨n, ra, rb, rfl⟩
  | _ => exact absurd h (by intro e; cases e)

end Sys2Proof.Machine
end

