-- ==== Sys2Proof/Laws/PerInstr.lean ====
section
/-!
SUPPORT. Facts about every instruction as syntax, one lemma per constructor.
-/

namespace Sys2Proof.Laws

/-- Taking an instruction's operands back from its own word gives the instruction (R81, R82). -/
def Rebuild.Statement (i : Instr) : Prop := buildInstr i.op (encode i) = i

/-- An instruction's operands fit the slots of its operation (R82, R105): an assembler accepts them. -/
def Accepted.Statement (i : Instr) : Prop := AsmOperand.allFit i.op.slots i.operands = true

theorem allFit_cons {sl : Slot} {o : AsmOperand} {sls : List Slot} {os : List AsmOperand} (h : o.fits sl = true)
    (t : AsmOperand.allFit sls os = true) : AsmOperand.allFit (sl :: sls) (o :: os) = true := by
  simp only [AsmOperand.allFit, h, t, Bool.and_self]

theorem fits_imm8 (v : Byte) : (decide ((0 : Int) ≤ v.toNat) && decide ((v.toNat : Int) < 256)) = true := by
  have := v.isLt
  simp only [Bool.and_eq_true, decide_eq_true_eq]; omega

theorem fits_reg1 (r : RegNum) : (AsmOperand.reg r.toNat).fits .reg1 = true := decide_eq_true r.isLt
theorem fits_reg2 (r : RegNum) : (AsmOperand.reg r.toNat).fits .reg2 = true := decide_eq_true r.isLt
theorem fits_reg3 (r : RegNum) : (AsmOperand.reg r.toNat).fits .reg3 = true := decide_eq_true r.isLt
theorem fits_imm1 (v : Byte) : (AsmOperand.imm v.toNat).fits .imm1 = true := fits_imm8 v
theorem fits_imm2 (v : Byte) : (AsmOperand.imm v.toNat).fits .imm2 = true := fits_imm8 v
theorem fits_imm3 (v : Byte) : (AsmOperand.imm v.toNat).fits .imm3 = true := fits_imm8 v

theorem fits_imm16 (v : Word) : (AsmOperand.imm v.toNat).fits .imm16 = true := by
  have := v.isLt
  simp only [AsmOperand.fits, Bool.and_eq_true, decide_eq_true_eq]; omega

theorem Rebuild.add (d : RegNum) (s0 : RegNum) (s1 : RegNum) : Rebuild.Statement (.add d s0 s1) := by
  show Instr.add (b1 _) (b2 _) (b3 _) = _; rw [b1_encode, b2_encode, b3_encode]; rfl
theorem Rebuild.sub (d : RegNum) (s0 : RegNum) (s1 : RegNum) : Rebuild.Statement (.sub d s0 s1) := by
  show Instr.sub (b1 _) (b2 _) (b3 _) = _; rw [b1_encode, b2_encode, b3_encode]; rfl
theorem Rebuild.mul (d : RegNum) (s0 : RegNum) (s1 : RegNum) : Rebuild.Statement (.mul d s0 s1) := by
  show Instr.mul (b1 _) (b2 _) (b3 _) = _; rw [b1_encode, b2_encode, b3_encode]; rfl
theorem Rebuild.div (d : RegNum) (s0 : RegNum) (s1 : RegNum) : Rebuild.Statement (.div d s0 s1) := by
  show Instr.div (b1 _) (b2 _) (b3 _) = _; rw [b1_encode, b2_encode, b3_encode]; rfl
theorem Rebuild.rem (d : RegNum) (s0 : RegNum) (s1 : RegNum) : Rebuild.Statement (.rem d s0 s1) := by
  show Instr.rem (b1 _) (b2 _) (b3 _) = _; rw [b1_encode, b2_encode, b3_encode]; rfl
theorem Rebuild.shl (d : RegNum) (s0 : RegNum) (s1 : RegNum) : Rebuild.Statement (.shl d s0 s1) := by
  show Instr.shl (b1 _) (b2 _) (b3 _) = _; rw [b1_encode, b2_encode, b3_encode]; rfl
theorem Rebuild.shr (d : RegNum) (s0 : RegNum) (s1 : RegNum) : Rebuild.Statement (.shr d s0 s1) := by
  show Instr.shr (b1 _) (b2 _) (b3 _) = _; rw [b1_encode, b2_encode, b3_encode]; rfl
theorem Rebuild.and (d : RegNum) (s0 : RegNum) (s1 : RegNum) : Rebuild.Statement (.and d s0 s1) := by
  show Instr.and (b1 _) (b2 _) (b3 _) = _; rw [b1_encode, b2_encode, b3_encode]; rfl
theorem Rebuild.or (d : RegNum) (s0 : RegNum) (s1 : RegNum) : Rebuild.Statement (.or d s0 s1) := by
  show Instr.or (b1 _) (b2 _) (b3 _) = _; rw [b1_encode, b2_encode, b3_encode]; rfl
theorem Rebuild.not (d : RegNum) (s0 : RegNum) : Rebuild.Statement (.not d s0) := by
  show Instr.not (b1 _) (b2 _) = _; rw [b1_encode, b2_encode]; rfl
theorem Rebuild.xor (d : RegNum) (s0 : RegNum) (s1 : RegNum) : Rebuild.Statement (.xor d s0 s1) := by
  show Instr.xor (b1 _) (b2 _) (b3 _) = _; rw [b1_encode, b2_encode, b3_encode]; rfl
theorem Rebuild.addi (d : RegNum) (s0 : RegNum) (imm : Byte) : Rebuild.Statement (.addi d s0 imm) := by
  show Instr.addi (b1 _) (b2 _) (b3 _) = _; rw [b1_encode, b2_encode, b3_encode]; rfl
theorem Rebuild.subi (d : RegNum) (s0 : RegNum) (imm : Byte) : Rebuild.Statement (.subi d s0 imm) := by
  show Instr.subi (b1 _) (b2 _) (b3 _) = _; rw [b1_encode, b2_encode, b3_encode]; rfl
theorem Rebuild.muli (d : RegNum) (s0 : RegNum) (imm : Byte) : Rebuild.Statement (.muli d s0 imm) := by
  show Instr.muli (b1 _) (b2 _) (b3 _) = _; rw [b1_encode, b2_encode, b3_encode]; rfl
theorem Rebuild.divi (d : RegNum) (s0 : RegNum) (imm : Byte) : Rebuild.Statement (.divi d s0 imm) := by
  show Instr.divi (b1 _) (b2 _) (b3 _) = _; rw [b1_encode, b2_encode, b3_encode]; rfl
theorem Rebuild.remi (d : RegNum) (s0 : RegNum) (imm : Byte) : Rebuild.Statement (.remi d s0 imm) := by
  show Instr.remi (b1 _) (b2 _) (b3 _) = _; rw [b1_encode, b2_encode, b3_encode]; rfl
theorem Rebuild.shli (d : RegNum) (s0 : RegNum) (imm : Byte) : Rebuild.Statement (.shli d s0 imm) := by
  show Instr.shli (b1 _) (b2 _) (b3 _) = _; rw [b1_encode, b2_encode, b3_encode]; rfl
theorem Rebuild.shri (d : RegNum) (s0 : RegNum) (imm : Byte) : Rebuild.Statement (.shri d s0 imm) := by
  show Instr.shri (b1 _) (b2 _) (b3 _) = _; rw [b1_encode, b2_encode, b3_encode]; rfl
theorem Rebuild.move (d : RegNum) (r : RegNum) : Rebuild.Statement (.move d r) := by
  show Instr.move (b1 _) (b2 _) = _; rw [b1_encode, b2_encode]; rfl
theorem Rebuild.swap (d : RegNum) (r : RegNum) : Rebuild.Statement (.swap d r) := by
  show Instr.swap (b1 _) (b2 _) = _; rw [b1_encode, b2_encode]; rfl
theorem Rebuild.set (d : RegNum) (imm : Word) : Rebuild.Statement (.set d imm) := by
  show Instr.set (b1 _) (imm16 _) = _; rw [b1_encode, imm16_encode (v := imm) rfl rfl]; rfl
theorem Rebuild.ld (d : RegNum) (a : RegNum) : Rebuild.Statement (.ld d a) := by
  show Instr.ld (b1 _) (b2 _) = _; rw [b1_encode, b2_encode]; rfl
theorem Rebuild.ldi (d : RegNum) (addr : Word) : Rebuild.Statement (.ldi d addr) := by
  show Instr.ldi (b1 _) (imm16 _) = _; rw [b1_encode, imm16_encode (v := addr) rfl rfl]; rfl
theorem Rebuild.ldc (a : RegNum) (lo : RegNum) (hi : RegNum) : Rebuild.Statement (.ldc a lo hi) := by
  show Instr.ldc (b1 _) (b2 _) (b3 _) = _; rw [b1_encode, b2_encode, b3_encode]; rfl
theorem Rebuild.st (a : RegNum) (r : RegNum) : Rebuild.Statement (.st a r) := by
  show Instr.st (b1 _) (b2 _) = _; rw [b1_encode, b2_encode]; rfl
theorem Rebuild.stc (a : RegNum) (lo : RegNum) (hi : RegNum) : Rebuild.Statement (.stc a lo hi) := by
  show Instr.stc (b1 _) (b2 _) (b3 _) = _; rw [b1_encode, b2_encode, b3_encode]; rfl
theorem Rebuild.memset (a : RegNum) (imm : Word) : Rebuild.Statement (.memset a imm) := by
  show Instr.memset (b1 _) (imm16 _) = _; rw [b1_encode, imm16_encode (v := imm) rfl rfl]; rfl
theorem Rebuild.push (r : RegNum) : Rebuild.Statement (.push r) := by
  show Instr.push (b1 _) = _; rw [b1_encode]; rfl
theorem Rebuild.pushi (imm : Word) : Rebuild.Statement (.pushi imm) := by
  show Instr.pushi (imm16 _) = _; rw [imm16_encode (v := imm) rfl rfl]
theorem Rebuild.pop (d : RegNum) : Rebuild.Statement (.pop d) := by
  show Instr.pop (b1 _) = _; rw [b1_encode]; rfl
theorem Rebuild.j (target : Word) : Rebuild.Statement (.j target) := by
  show Instr.j (imm16 _) = _; rw [imm16_encode (v := target) rfl rfl]
theorem Rebuild.jl (l : RegNum) (target : Word) : Rebuild.Statement (.jl l target) := by
  show Instr.jl (b1 _) (imm16 _) = _; rw [b1_encode, imm16_encode (v := target) rfl rfl]; rfl
theorem Rebuild.jr (a : RegNum) : Rebuild.Statement (.jr a) := by
  show Instr.jr (b1 _) = _; rw [b1_encode]; rfl
theorem Rebuild.jrl (l : RegNum) (a : RegNum) : Rebuild.Statement (.jrl l a) := by
  show Instr.jrl (b1 _) (b2 _) = _; rw [b1_encode, b2_encode]; rfl
theorem Rebuild.jt (p : RegNum) (target : Word) : Rebuild.Statement (.jt p target) := by
  show Instr.jt (b1 _) (imm16 _) = _; rw [b1_encode, imm16_encode (v := target) rfl rfl]; rfl
theorem Rebuild.jtl (l : RegNum) (target : Word) : Rebuild.Statement (.jtl l target) := by
  show Instr.jtl (b1 _) (imm16 _) = _; rw [b1_encode, imm16_encode (v := target) rfl rfl]; rfl
theorem Rebuild.jrt (p : RegNum) (a : RegNum) : Rebuild.Statement (.jrt p a) := by
  show Instr.jrt (b1 _) (b2 _) = _; rw [b1_encode, b2_encode]; rfl
theorem Rebuild.jrtl (p : RegNum) (a : RegNum) (l : RegNum) : Rebuild.Statement (.jrtl p a l) := by
  show Instr.jrtl (b1 _) (b2 _) (b3 _) = _; rw [b1_encode, b2_encode, b3_encode]; rfl
theorem Rebuild.jf (p : RegNum) (target : Word) : Rebuild.Statement (.jf p target) := by
  show Instr.jf (b1 _) (imm16 _) = _; rw [b1_encode, imm16_encode (v := target) rfl rfl]; rfl
theorem Rebuild.jfl (l : RegNum) (target : Word) : Rebuild.Statement (.jfl l target) := by
  show Instr.jfl (b1 _) (imm16 _) = _; rw [b1_encode, imm16_encode (v := target) rfl rfl]; rfl
theorem Rebuild.jrf (p : RegNum) (a : RegNum) : Rebuild.Statement (.jrf p a) := by
  show Instr.jrf (b1 _) (b2 _) = _; rw [b1_encode, b2_encode]; rfl
theorem Rebuild.jrfl (p : RegNum) (a : RegNum) (l : RegNum) : Rebuild.Statement (.jrfl p a l) := by
  show Instr.jrfl (b1 _) (b2 _) (b3 _) = _; rw [b1_encode, b2_encode, b3_encode]; rfl
theorem Rebuild.ift (p : RegNum) (t : RegNum) (f : RegNum) : Rebuild.Statement (.ift p t f) := by
  show Instr.ift (b1 _) (b2 _) (b3 _) = _; rw [b1_encode, b2_encode, b3_encode]; rfl
theorem Rebuild.iff (p : RegNum) (t : RegNum) (f : RegNum) : Rebuild.Statement (.iff p t f) := by
  show Instr.iff (b1 _) (b2 _) (b3 _) = _; rw [b1_encode, b2_encode, b3_encode]; rfl
theorem Rebuild.iftl (l : RegNum) (t : RegNum) (f : RegNum) : Rebuild.Statement (.iftl l t f) := by
  show Instr.iftl (b1 _) (b2 _) (b3 _) = _; rw [b1_encode, b2_encode, b3_encode]; rfl
theorem Rebuild.iffl (l : RegNum) (t : RegNum) (f : RegNum) : Rebuild.Statement (.iffl l t f) := by
  show Instr.iffl (b1 _) (b2 _) (b3 _) = _; rw [b1_encode, b2_encode, b3_encode]; rfl
theorem Rebuild.eq (d : RegNum) (s0 : RegNum) (s1 : RegNum) : Rebuild.Statement (.eq d s0 s1) := by
  show Instr.eq (b1 _) (b2 _) (b3 _) = _; rw [b1_encode, b2_encode, b3_encode]; rfl
theorem Rebuild.ne (d : RegNum) (s0 : RegNum) (s1 : RegNum) : Rebuild.Statement (.ne d s0 s1) := by
  show Instr.ne (b1 _) (b2 _) (b3 _) = _; rw [b1_encode, b2_encode, b3_encode]; rfl
theorem Rebuild.lt (d : RegNum) (s0 : RegNum) (s1 : RegNum) : Rebuild.Statement (.lt d s0 s1) := by
  show Instr.lt (b1 _) (b2 _) (b3 _) = _; rw [b1_encode, b2_encode, b3_encode]; rfl
theorem Rebuild.gt (d : RegNum) (s0 : RegNum) (s1 : RegNum) : Rebuild.Statement (.gt d s0 s1) := by
  show Instr.gt (b1 _) (b2 _) (b3 _) = _; rw [b1_encode, b2_encode, b3_encode]; rfl
theorem Rebuild.le (d : RegNum) (s0 : RegNum) (s1 : RegNum) : Rebuild.Statement (.le d s0 s1) := by
  show Instr.le (b1 _) (b2 _) (b3 _) = _; rw [b1_encode, b2_encode, b3_encode]; rfl
theorem Rebuild.ge (d : RegNum) (s0 : RegNum) (s1 : RegNum) : Rebuild.Statement (.ge d s0 s1) := by
  show Instr.ge (b1 _) (b2 _) (b3 _) = _; rw [b1_encode, b2_encode, b3_encode]; rfl
theorem Rebuild.eqi (d : RegNum) (s0 : RegNum) (imm : Byte) : Rebuild.Statement (.eqi d s0 imm) := by
  show Instr.eqi (b1 _) (b2 _) (b3 _) = _; rw [b1_encode, b2_encode, b3_encode]; rfl
theorem Rebuild.nei (d : RegNum) (s0 : RegNum) (imm : Byte) : Rebuild.Statement (.nei d s0 imm) := by
  show Instr.nei (b1 _) (b2 _) (b3 _) = _; rw [b1_encode, b2_encode, b3_encode]; rfl
theorem Rebuild.lti (d : RegNum) (s0 : RegNum) (imm : Byte) : Rebuild.Statement (.lti d s0 imm) := by
  show Instr.lti (b1 _) (b2 _) (b3 _) = _; rw [b1_encode, b2_encode, b3_encode]; rfl
theorem Rebuild.gti (d : RegNum) (s0 : RegNum) (imm : Byte) : Rebuild.Statement (.gti d s0 imm) := by
  show Instr.gti (b1 _) (b2 _) (b3 _) = _; rw [b1_encode, b2_encode, b3_encode]; rfl
theorem Rebuild.lei (d : RegNum) (s0 : RegNum) (imm : Byte) : Rebuild.Statement (.lei d s0 imm) := by
  show Instr.lei (b1 _) (b2 _) (b3 _) = _; rw [b1_encode, b2_encode, b3_encode]; rfl
theorem Rebuild.gei (d : RegNum) (s0 : RegNum) (imm : Byte) : Rebuild.Statement (.gei d s0 imm) := by
  show Instr.gei (b1 _) (b2 _) (b3 _) = _; rw [b1_encode, b2_encode, b3_encode]; rfl
theorem Rebuild.system (n : Byte) (ra : RegNum) (rb : RegNum) : Rebuild.Statement (.system n ra rb) := by
  show Instr.system (b1 _) (b2 _) (b3 _) = _; rw [b1_encode, b2_encode, b3_encode]; rfl
theorem Rebuild.implicitSet (k : ImplNum) (r : RegNum) : Rebuild.Statement (.implicitSet k r) := by
  show Instr.implicitSet (b1 _) (b2 _) = _; rw [b1_encode, b2_encode]; rfl
theorem Rebuild.implicitIndirectSet (ri : RegNum) (r : RegNum) : Rebuild.Statement (.implicitIndirectSet ri r) := by
  show Instr.implicitIndirectSet (b1 _) (b2 _) = _; rw [b1_encode, b2_encode]; rfl
theorem Rebuild.implicitGet (d : RegNum) (k : ImplNum) : Rebuild.Statement (.implicitGet d k) := by
  show Instr.implicitGet (b1 _) (b2 _) = _; rw [b1_encode, b2_encode]; rfl
theorem Rebuild.implicitIndirectGet (d : RegNum) (ri : RegNum) : Rebuild.Statement (.implicitIndirectGet d ri) := by
  show Instr.implicitIndirectGet (b1 _) (b2 _) = _; rw [b1_encode, b2_encode]; rfl

theorem Accepted.add (d : RegNum) (s0 : RegNum) (s1 : RegNum) : Accepted.Statement (.add d s0 s1) :=
  allFit_cons (fits_reg1 d) (allFit_cons (fits_reg2 s0) (allFit_cons (fits_reg3 s1) rfl))
theorem Accepted.sub (d : RegNum) (s0 : RegNum) (s1 : RegNum) : Accepted.Statement (.sub d s0 s1) :=
  allFit_cons (fits_reg1 d) (allFit_cons (fits_reg2 s0) (allFit_cons (fits_reg3 s1) rfl))
theorem Accepted.mul (d : RegNum) (s0 : RegNum) (s1 : RegNum) : Accepted.Statement (.mul d s0 s1) :=
  allFit_cons (fits_reg1 d) (allFit_cons (fits_reg2 s0) (allFit_cons (fits_reg3 s1) rfl))
theorem Accepted.div (d : RegNum) (s0 : RegNum) (s1 : RegNum) : Accepted.Statement (.div d s0 s1) :=
  allFit_cons (fits_reg1 d) (allFit_cons (fits_reg2 s0) (allFit_cons (fits_reg3 s1) rfl))
theorem Accepted.rem (d : RegNum) (s0 : RegNum) (s1 : RegNum) : Accepted.Statement (.rem d s0 s1) :=
  allFit_cons (fits_reg1 d) (allFit_cons (fits_reg2 s0) (allFit_cons (fits_reg3 s1) rfl))
theorem Accepted.shl (d : RegNum) (s0 : RegNum) (s1 : RegNum) : Accepted.Statement (.shl d s0 s1) :=
  allFit_cons (fits_reg1 d) (allFit_cons (fits_reg2 s0) (allFit_cons (fits_reg3 s1) rfl))
theorem Accepted.shr (d : RegNum) (s0 : RegNum) (s1 : RegNum) : Accepted.Statement (.shr d s0 s1) :=
  allFit_cons (fits_reg1 d) (allFit_cons (fits_reg2 s0) (allFit_cons (fits_reg3 s1) rfl))
theorem Accepted.and (d : RegNum) (s0 : RegNum) (s1 : RegNum) : Accepted.Statement (.and d s0 s1) :=
  allFit_cons (fits_reg1 d) (allFit_cons (fits_reg2 s0) (allFit_cons (fits_reg3 s1) rfl))
theorem Accepted.or (d : RegNum) (s0 : RegNum) (s1 : RegNum) : Accepted.Statement (.or d s0 s1) :=
  allFit_cons (fits_reg1 d) (allFit_cons (fits_reg2 s0) (allFit_cons (fits_reg3 s1) rfl))
theorem Accepted.not (d : RegNum) (s0 : RegNum) : Accepted.Statement (.not d s0) :=
  allFit_cons (fits_reg1 d) (allFit_cons (fits_reg2 s0) rfl)
theorem Accepted.xor (d : RegNum) (s0 : RegNum) (s1 : RegNum) : Accepted.Statement (.xor d s0 s1) :=
  allFit_cons (fits_reg1 d) (allFit_cons (fits_reg2 s0) (allFit_cons (fits_reg3 s1) rfl))
theorem Accepted.addi (d : RegNum) (s0 : RegNum) (imm : Byte) : Accepted.Statement (.addi d s0 imm) :=
  allFit_cons (fits_reg1 d) (allFit_cons (fits_reg2 s0) (allFit_cons (fits_imm3 imm) rfl))
theorem Accepted.subi (d : RegNum) (s0 : RegNum) (imm : Byte) : Accepted.Statement (.subi d s0 imm) :=
  allFit_cons (fits_reg1 d) (allFit_cons (fits_reg2 s0) (allFit_cons (fits_imm3 imm) rfl))
theorem Accepted.muli (d : RegNum) (s0 : RegNum) (imm : Byte) : Accepted.Statement (.muli d s0 imm) :=
  allFit_cons (fits_reg1 d) (allFit_cons (fits_reg2 s0) (allFit_cons (fits_imm3 imm) rfl))
theorem Accepted.divi (d : RegNum) (s0 : RegNum) (imm : Byte) : Accepted.Statement (.divi d s0 imm) :=
  allFit_cons (fits_reg1 d) (allFit_cons (fits_reg2 s0) (allFit_cons (fits_imm3 imm) rfl))
theorem Accepted.remi (d : RegNum) (s0 : RegNum) (imm : Byte) : Accepted.Statement (.remi d s0 imm) :=
  allFit_cons (fits_reg1 d) (allFit_cons (fits_reg2 s0) (allFit_cons (fits_imm3 imm) rfl))
theorem Accepted.shli (d : RegNum) (s0 : RegNum) (imm : Byte) : Accepted.Statement (.shli d s0 imm) :=
  allFit_cons (fits_reg1 d) (allFit_cons (fits_reg2 s0) (allFit_cons (fits_imm3 imm) rfl))
theorem Accepted.shri (d : RegNum) (s0 : RegNum) (imm : Byte) : Accepted.Statement (.shri d s0 imm) :=
  allFit_cons (fits_reg1 d) (allFit_cons (fits_reg2 s0) (allFit_cons (fits_imm3 imm) rfl))
theorem Accepted.move (d : RegNum) (r : RegNum) : Accepted.Statement (.move d r) :=
  allFit_cons (fits_reg1 d) (allFit_cons (fits_reg2 r) rfl)
theorem Accepted.swap (d : RegNum) (r : RegNum) : Accepted.Statement (.swap d r) :=
  allFit_cons (fits_reg1 d) (allFit_cons (fits_reg2 r) rfl)
theorem Accepted.set (d : RegNum) (imm : Word) : Accepted.Statement (.set d imm) :=
  allFit_cons (fits_reg1 d) (allFit_cons (fits_imm16 imm) rfl)
theorem Accepted.ld (d : RegNum) (a : RegNum) : Accepted.Statement (.ld d a) :=
  allFit_cons (fits_reg1 d) (allFit_cons (fits_reg2 a) rfl)
theorem Accepted.ldi (d : RegNum) (addr : Word) : Accepted.Statement (.ldi d addr) :=
  allFit_cons (fits_reg1 d) (allFit_cons (fits_imm16 addr) rfl)
theorem Accepted.ldc (a : RegNum) (lo : RegNum) (hi : RegNum) : Accepted.Statement (.ldc a lo hi) :=
  allFit_cons (fits_reg1 a) (allFit_cons (fits_reg2 lo) (allFit_cons (fits_reg3 hi) rfl))
theorem Accepted.st (a : RegNum) (r : RegNum) : Accepted.Statement (.st a r) :=
  allFit_cons (fits_reg1 a) (allFit_cons (fits_reg2 r) rfl)
theorem Accepted.stc (a : RegNum) (lo : RegNum) (hi : RegNum) : Accepted.Statement (.stc a lo hi) :=
  allFit_cons (fits_reg1 a) (allFit_cons (fits_reg2 lo) (allFit_cons (fits_reg3 hi) rfl))
theorem Accepted.memset (a : RegNum) (imm : Word) : Accepted.Statement (.memset a imm) :=
  allFit_cons (fits_reg1 a) (allFit_cons (fits_imm16 imm) rfl)
theorem Accepted.push (r : RegNum) : Accepted.Statement (.push r) :=
  allFit_cons (fits_reg1 r) rfl
theorem Accepted.pushi (imm : Word) : Accepted.Statement (.pushi imm) :=
  allFit_cons (fits_imm16 imm) rfl
theorem Accepted.pop (d : RegNum) : Accepted.Statement (.pop d) :=
  allFit_cons (fits_reg1 d) rfl
theorem Accepted.j (target : Word) : Accepted.Statement (.j target) :=
  allFit_cons (fits_imm16 target) rfl
theorem Accepted.jl (l : RegNum) (target : Word) : Accepted.Statement (.jl l target) :=
  allFit_cons (fits_reg1 l) (allFit_cons (fits_imm16 target) rfl)
theorem Accepted.jr (a : RegNum) : Accepted.Statement (.jr a) :=
  allFit_cons (fits_reg1 a) rfl
theorem Accepted.jrl (l : RegNum) (a : RegNum) : Accepted.Statement (.jrl l a) :=
  allFit_cons (fits_reg1 l) (allFit_cons (fits_reg2 a) rfl)
theorem Accepted.jt (p : RegNum) (target : Word) : Accepted.Statement (.jt p target) :=
  allFit_cons (fits_reg1 p) (allFit_cons (fits_imm16 target) rfl)
theorem Accepted.jtl (l : RegNum) (target : Word) : Accepted.Statement (.jtl l target) :=
  allFit_cons (fits_reg1 l) (allFit_cons (fits_imm16 target) rfl)
theorem Accepted.jrt (p : RegNum) (a : RegNum) : Accepted.Statement (.jrt p a) :=
  allFit_cons (fits_reg1 p) (allFit_cons (fits_reg2 a) rfl)
theorem Accepted.jrtl (p : RegNum) (a : RegNum) (l : RegNum) : Accepted.Statement (.jrtl p a l) :=
  allFit_cons (fits_reg1 p) (allFit_cons (fits_reg2 a) (allFit_cons (fits_reg3 l) rfl))
theorem Accepted.jf (p : RegNum) (target : Word) : Accepted.Statement (.jf p target) :=
  allFit_cons (fits_reg1 p) (allFit_cons (fits_imm16 target) rfl)
theorem Accepted.jfl (l : RegNum) (target : Word) : Accepted.Statement (.jfl l target) :=
  allFit_cons (fits_reg1 l) (allFit_cons (fits_imm16 target) rfl)
theorem Accepted.jrf (p : RegNum) (a : RegNum) : Accepted.Statement (.jrf p a) :=
  allFit_cons (fits_reg1 p) (allFit_cons (fits_reg2 a) rfl)
theorem Accepted.jrfl (p : RegNum) (a : RegNum) (l : RegNum) : Accepted.Statement (.jrfl p a l) :=
  allFit_cons (fits_reg1 p) (allFit_cons (fits_reg2 a) (allFit_cons (fits_reg3 l) rfl))
theorem Accepted.ift (p : RegNum) (t : RegNum) (f : RegNum) : Accepted.Statement (.ift p t f) :=
  allFit_cons (fits_reg1 p) (allFit_cons (fits_reg2 t) (allFit_cons (fits_reg3 f) rfl))
theorem Accepted.iff (p : RegNum) (t : RegNum) (f : RegNum) : Accepted.Statement (.iff p t f) :=
  allFit_cons (fits_reg1 p) (allFit_cons (fits_reg2 t) (allFit_cons (fits_reg3 f) rfl))
theorem Accepted.iftl (l : RegNum) (t : RegNum) (f : RegNum) : Accepted.Statement (.iftl l t f) :=
  allFit_cons (fits_reg1 l) (allFit_cons (fits_reg2 t) (allFit_cons (fits_reg3 f) rfl))
theorem Accepted.iffl (l : RegNum) (t : RegNum) (f : RegNum) : Accepted.Statement (.iffl l t f) :=
  allFit_cons (fits_reg1 l) (allFit_cons (fits_reg2 t) (allFit_cons (fits_reg3 f) rfl))
theorem Accepted.eq (d : RegNum) (s0 : RegNum) (s1 : RegNum) : Accepted.Statement (.eq d s0 s1) :=
  allFit_cons (fits_reg1 d) (allFit_cons (fits_reg2 s0) (allFit_cons (fits_reg3 s1) rfl))
theorem Accepted.ne (d : RegNum) (s0 : RegNum) (s1 : RegNum) : Accepted.Statement (.ne d s0 s1) :=
  allFit_cons (fits_reg1 d) (allFit_cons (fits_reg2 s0) (allFit_cons (fits_reg3 s1) rfl))
theorem Accepted.lt (d : RegNum) (s0 : RegNum) (s1 : RegNum) : Accepted.Statement (.lt d s0 s1) :=
  allFit_cons (fits_reg1 d) (allFit_cons (fits_reg2 s0) (allFit_cons (fits_reg3 s1) rfl))
theorem Accepted.gt (d : RegNum) (s0 : RegNum) (s1 : RegNum) : Accepted.Statement (.gt d s0 s1) :=
  allFit_cons (fits_reg1 d) (allFit_cons (fits_reg2 s0) (allFit_cons (fits_reg3 s1) rfl))
theorem Accepted.le (d : RegNum) (s0 : RegNum) (s1 : RegNum) : Accepted.Statement (.le d s0 s1) :=
  allFit_cons (fits_reg1 d) (allFit_cons (fits_reg2 s0) (allFit_cons (fits_reg3 s1) rfl))
theorem Accepted.ge (d : RegNum) (s0 : RegNum) (s1 : RegNum) : Accepted.Statement (.ge d s0 s1) :=
  allFit_cons (fits_reg1 d) (allFit_cons (fits_reg2 s0) (allFit_cons (fits_reg3 s1) rfl))
theorem Accepted.eqi (d : RegNum) (s0 : RegNum) (imm : Byte) : Accepted.Statement (.eqi d s0 imm) :=
  allFit_cons (fits_reg1 d) (allFit_cons (fits_reg2 s0) (allFit_cons (fits_imm3 imm) rfl))
theorem Accepted.nei (d : RegNum) (s0 : RegNum) (imm : Byte) : Accepted.Statement (.nei d s0 imm) :=
  allFit_cons (fits_reg1 d) (allFit_cons (fits_reg2 s0) (allFit_cons (fits_imm3 imm) rfl))
theorem Accepted.lti (d : RegNum) (s0 : RegNum) (imm : Byte) : Accepted.Statement (.lti d s0 imm) :=
  allFit_cons (fits_reg1 d) (allFit_cons (fits_reg2 s0) (allFit_cons (fits_imm3 imm) rfl))
theorem Accepted.gti (d : RegNum) (s0 : RegNum) (imm : Byte) : Accepted.Statement (.gti d s0 imm) :=
  allFit_cons (fits_reg1 d) (allFit_cons (fits_reg2 s0) (allFit_cons (fits_imm3 imm) rfl))
theorem Accepted.lei (d : RegNum) (s0 : RegNum) (imm : Byte) : Accepted.Statement (.lei d s0 imm) :=
  allFit_cons (fits_reg1 d) (allFit_cons (fits_reg2 s0) (allFit_cons (fits_imm3 imm) rfl))
theorem Accepted.gei (d : RegNum) (s0 : RegNum) (imm : Byte) : Accepted.Statement (.gei d s0 imm) :=
  allFit_cons (fits_reg1 d) (allFit_cons (fits_reg2 s0) (allFit_cons (fits_imm3 imm) rfl))
theorem Accepted.system (n : Byte) (ra : RegNum) (rb : RegNum) : Accepted.Statement (.system n ra rb) :=
  allFit_cons (fits_imm1 n) (allFit_cons (fits_reg2 ra) (allFit_cons (fits_reg3 rb) rfl))
theorem Accepted.implicitSet (k : ImplNum) (r : RegNum) : Accepted.Statement (.implicitSet k r) :=
  allFit_cons (fits_imm1 k) (allFit_cons (fits_reg2 r) rfl)
theorem Accepted.implicitIndirectSet (ri : RegNum) (r : RegNum) : Accepted.Statement (.implicitIndirectSet ri r) :=
  allFit_cons (fits_reg1 ri) (allFit_cons (fits_reg2 r) rfl)
theorem Accepted.implicitGet (d : RegNum) (k : ImplNum) : Accepted.Statement (.implicitGet d k) :=
  allFit_cons (fits_reg1 d) (allFit_cons (fits_imm2 k) rfl)
theorem Accepted.implicitIndirectGet (d : RegNum) (ri : RegNum) : Accepted.Statement (.implicitIndirectGet d ri) :=
  allFit_cons (fits_reg1 d) (allFit_cons (fits_reg2 ri) rfl)

end Sys2Proof.Laws
end

