-- ==== Sys2Proof/Tests/Slice0.lean ====
section
/-!
SUPPORT. The model's own tests. Expected results are those of spec/95_test_vectors.md, by the id in each docstring
(S, E, A, I, M, K, J, Q, X); where a theorem has no id its docstring says what it was worked out from. Then, for every
statement of Certificates/Slice0/Obligations.lean that has hypotheses, a witness that meets them.
-/

namespace Sys2Proof.Machine

/-! ### The assembler's check: an ill-formed line for each check, and lines it accepts -/

/-- R104: a mnemonic that names no operation. -/
theorem test_wf_unknown_mnemonic : AsmLine.wellFormed ⟨"nop", []⟩ = false := by decide
/-- Log 34, the model's choice: an upper-case spelling names no operation. -/
theorem test_wf_case : AsmLine.wellFormed ⟨"ADD", [.reg 3, .reg 1, .reg 2]⟩ = false ∧
    AsmLine.wellFormed ⟨"add", [.reg 3, .reg 1, .reg 2]⟩ = true := by decide
/-- R105: a missing operand. -/
theorem test_wf_too_few_operands : AsmLine.wellFormed ⟨"add", [.reg 0, .reg 1]⟩ = false := by decide
/-- R105, R133: an operand too many; `not` has two. -/
theorem test_wf_too_many_operands : AsmLine.wellFormed ⟨"not", [.reg 0, .reg 1, .reg 2]⟩ = false := by decide
/-- R105: an immediate where a register belongs, and a register where an immediate belongs. -/
theorem test_wf_wrong_kind : AsmLine.wellFormed ⟨"add", [.reg 0, .reg 1, .imm 2]⟩ = false ∧
    AsmLine.wellFormed ⟨"addi", [.reg 0, .reg 1, .reg 2]⟩ = false := by decide
/-- R104: registers are r0 to r255. -/
theorem test_wf_register_range : AsmLine.wellFormed ⟨"push", [.reg 256]⟩ = false ∧
    AsmLine.wellFormed ⟨"push", [.reg 255]⟩ = true := by decide
/-- R84: an 8-bit immediate is 0 to 255. -/
theorem test_wf_imm8_range : AsmLine.wellFormed ⟨"addi", [.reg 0, .reg 1, .imm 256]⟩ = false ∧
    AsmLine.wellFormed ⟨"addi", [.reg 0, .reg 1, .imm 255]⟩ = true := by decide
/-- S1: `addi r0 r1 -1` is an error. -/
theorem test_wf_no_negative : AsmLine.wellFormed ⟨"addi", [.reg 0, .reg 1, .imm (-1)]⟩ = false := by decide
/-- R83: a 16-bit immediate is 0 to 65535. -/
theorem test_wf_imm16_range : AsmLine.wellFormed ⟨"set", [.reg 5, .imm 65536]⟩ = false ∧
    AsmLine.wellFormed ⟨"set", [.reg 5, .imm 65535]⟩ = true := by decide
/-- S2, M10: `subi r0 r1 1`, and both spellings of the direct load. -/
theorem test_assemble : assemble ⟨"subi", [.reg 0, .reg 1, .imm 1]⟩ = some 0x01010060 ∧
    assemble ⟨"ldi", [.reg 2, .imm 0x0100]⟩ = some 0x01000221 ∧
    assemble ⟨"ldm", [.reg 2, .imm 0x0100]⟩ = some 0x01000221 := by decide
/-- X12, J16: a dotted mnemonic; the operand order of `jrtl` is predicate, address, link. -/
theorem test_assemble_order : assemble ⟨"implicit.register.set", [.imm 1, .reg 6]⟩ = some 0x0006010C ∧
    assemble ⟨"jrtl", [.reg 4, .reg 11, .reg 10]⟩ = some 0x0A0B043A := by decide

/-! ### Decoding: every constructor by a word of the spec -/

/-- One word of each group written out field by field, `b3 b2 b1 op grp` (R81, R82, R90). -/
theorem test_decode_bits :
    decode 0b00000010_00000001_00000011_00000_000 = .instr (.add 3 1 2) ∧
    decode 0b00010010_00110100_00000101_00010_001 = .instr (.set 5 0x1234) ∧
    decode 0b00001010_00001011_00000100_00111_010 = .instr (.jrtl 4 11 10) ∧
    decode 0b11001000_00000001_00000100_00110_011 = .instr (.eqi 4 1 200) ∧
    decode 0b00000000_00000110_00000001_00001_100 = .instr (.implicitSet 1 6) := by decide

/-- Arithmetic registers (A1 to A33). -/
theorem test_decode_arithmetic_registers :
    decode 0x02010300 = .instr (.add 3 1 2) ∧
    decode 0x02010308 = .instr (.sub 3 1 2) ∧
    decode 0x02010310 = .instr (.mul 3 1 2) ∧
    decode 0x02010318 = .instr (.div 3 1 2) ∧
    decode 0x02010320 = .instr (.rem 3 1 2) ∧
    decode 0x02010328 = .instr (.shl 3 1 2) ∧
    decode 0x02010330 = .instr (.shr 3 1 2) ∧
    decode 0x02010338 = .instr (.and 3 1 2) ∧
    decode 0x02010340 = .instr (.or 3 1 2) ∧
    decode 0x00010348 = .instr (.not 3 1) ∧
    decode 0x02010350 = .instr (.xor 3 1 2) := by decide
/-- Arithmetic immediates (I1 to I20). -/
theorem test_decode_arithmetic_immediates :
    decode 0x01010358 = .instr (.addi 3 1 1) ∧
    decode 0xFF010360 = .instr (.subi 3 1 255) ∧
    decode 0x02010368 = .instr (.muli 3 1 2) ∧
    decode 0x07010370 = .instr (.divi 3 1 7) ∧
    decode 0x07010378 = .instr (.remi 3 1 7) ∧
    decode 0x0F010380 = .instr (.shli 3 1 15) ∧
    decode 0x10010388 = .instr (.shri 3 1 16) := by decide
/-- Move (M1 to M16, K1 to K4). -/
theorem test_decode_move :
    decode 0x00010201 = .instr (.move 2 1) ∧
    decode 0x00010209 = .instr (.swap 2 1) ∧
    decode 0x12340511 = .instr (.set 5 0x1234) ∧
    decode 0x00010219 = .instr (.ld 2 1) ∧
    decode 0x01000221 = .instr (.ldi 2 0x0100) ∧
    decode 0x03020129 = .instr (.ldc 1 2 3) ∧
    decode 0x00020131 = .instr (.st 1 2) ∧
    decode 0x03020139 = .instr (.stc 1 2 3) ∧
    decode 0xBEEF0141 = .instr (.memset 1 0xBEEF) ∧
    decode 0x00000749 = .instr (.push 7) ∧
    decode 0xCAFE0051 = .instr (.pushi 0xCAFE) ∧
    decode 0x00000859 = .instr (.pop 8) := by decide
/-- Jump (J1 to J33). -/
theorem test_decode_jump :
    decode 0x01000002 = .instr (.j 0x0100) ∧
    decode 0x01000A0A = .instr (.jl 10 0x0100) ∧
    decode 0x00000A12 = .instr (.jr 10) ∧
    decode 0x000B0A1A = .instr (.jrl 10 11) ∧
    decode 0x01000422 = .instr (.jt 4 0x0100) ∧
    decode 0x01000A2A = .instr (.jtl 10 0x0100) ∧
    decode 0x000B0432 = .instr (.jrt 4 11) ∧
    decode 0x0A0B043A = .instr (.jrtl 4 11 10) ∧
    decode 0x01000442 = .instr (.jf 4 0x0100) ∧
    decode 0x01000A4A = .instr (.jfl 10 0x0100) ∧
    decode 0x000B0452 = .instr (.jrf 4 11) ∧
    decode 0x0A0B045A = .instr (.jrfl 4 11 10) ∧
    decode 0x0C0B0462 = .instr (.ift 4 11 12) ∧
    decode 0x0C0B046A = .instr (.iff 4 11 12) ∧
    decode 0x0C0B0A72 = .instr (.iftl 10 11 12) ∧
    decode 0x0C0B0A7A = .instr (.iffl 10 11 12) := by decide
/-- Compare (Q1 to Q13). -/
theorem test_decode_compare :
    decode 0x02010403 = .instr (.eq 4 1 2) ∧
    decode 0x0201040B = .instr (.ne 4 1 2) ∧
    decode 0x02010413 = .instr (.lt 4 1 2) ∧
    decode 0x0201041B = .instr (.gt 4 1 2) ∧
    decode 0x02010423 = .instr (.le 4 1 2) ∧
    decode 0x0201042B = .instr (.ge 4 1 2) ∧
    decode 0xC8010433 = .instr (.eqi 4 1 200) ∧
    decode 0xC801043B = .instr (.nei 4 1 200) ∧
    decode 0xC8010443 = .instr (.lti 4 1 200) ∧
    decode 0xC801044B = .instr (.gti 4 1 200) ∧
    decode 0xC8010453 = .instr (.lei 4 1 200) ∧
    decode 0xC801045B = .instr (.gei 4 1 200) := by decide
/-- Misc (X2 to X20). -/
theorem test_decode_misc :
    decode 0x09070104 = .instr (.system 1 7 9) ∧
    decode 0x00064D0C = .instr (.implicitSet 77 6) ∧
    decode 0x00060714 = .instr (.implicitIndirectSet 7 6) ∧
    decode 0x0001081C = .instr (.implicitGet 8 1) ∧
    decode 0x00070824 = .instr (.implicitIndirectGet 8 7) := by decide
/-- E11, E12: unused fields are ignored. -/
theorem test_decode_unused_fields : decode 0xFF000A12 = .instr (.jr 10) ∧ decode 0xAB010348 = .instr (.not 3 1) := by
  decide
/-- E1 to E9: the undefined encodings, the group tested first. -/
theorem test_decode_undefined :
    [0x00000005, 0x00000006, 0xFFFFFFFF, 0x00000090, 0x000000F8, 0x00000061, 0x00000082, 0x00000063, 0x0000002C].map
      decode =
    [.undefined .undefinedGroup, .undefined .undefinedGroup, .undefined .undefinedGroup,
     .undefined .undefinedOperation, .undefined .undefinedOperation, .undefined .undefinedOperation,
     .undefined .undefinedOperation, .undefined .undefinedOperation, .undefined .undefinedOperation] := by decide
/-- R57, S2: in an image byte 0 comes first; three bytes are no word. -/
theorem test_decode_bytes : decodeBytes [0x60, 0x00, 0x01, 0x01, 0xFF] = some (.instr (.subi 0 1 1), [0xFF]) ∧
    decodeBytes [0x60, 0x00, 0x01] = none := by decide
/-- R57: the encoder's bytes. -/
theorem test_encode_bytes : encodeBytes (.subi 0 1 1) = [0x60, 0x00, 0x01, 0x01] := by decide

/-! ### One step -/

/-- The state after reset at `pc`, with one code word there and some registers set. -/
def placed (pc : Word) (w : CodeWord) (regs : List (RegNum × Word)) : State :=
  regs.foldl (fun s p => s.writeReg p.1 p.2) (({ State.reset with pc := pc } : State).writeCode pc w)

/-- What one step leaves, seen through `f`; `none` where it makes no step. -/
def seen {α : Type} (f : State → α) (s : State) : Option α :=
  match step s with
  | .next t => some (f t)
  | _ => none

/-- The status and the program counter after one step, and register 3. -/
def outcome (s : State) : Option (RunStatus × Word × Word) := seen (fun t => (t.status, t.pc, t.readReg 3)) s

/-! #### Arithmetic -/

/-- A2: wraps. -/
theorem test_add_wraps : seen (·.readReg 3) (placed 0 0x02010300 [(1, 0xFFFF), (2, 1)]) = some 0x0000 := by decide
/-- A34: the source is the destination. -/
theorem test_add_alias : seen (·.readReg 1) (placed 0 0x01010100 [(1, 0x4001)]) = some 0x8002 := by decide
/-- A5: wraps. -/
theorem test_sub_wraps : seen (·.readReg 3) (placed 0 0x02010308 [(1, 0), (2, 1)]) = some 0xFFFF := by decide
/-- A4: operand order. -/
theorem test_sub : seen (·.readReg 3) (placed 0 0x02010308 [(1, 5), (2, 3)]) = some 0x0002 := by decide
/-- A9. -/
theorem test_mul : seen (·.readReg 3) (placed 0 0x02010310 [(1, 0xFFFF), (2, 0xFFFF)]) = some 0x0001 := by decide
/-- A11: unsigned. -/
theorem test_div : seen (·.readReg 3) (placed 0 0x02010318 [(1, 0xFFFF), (2, 2)]) = some 0x7FFF := by decide
/-- A15. -/
theorem test_rem : seen (·.readReg 3) (placed 0 0x02010320 [(1, 0xFFFF), (2, 16)]) = some 0x000F := by decide
/-- A17. -/
theorem test_shl : seen (·.readReg 3) (placed 0 0x02010328 [(1, 1), (2, 15)]) = some 0x8000 := by decide
/-- A21: the count is not masked. -/
theorem test_shl_count_256 : seen (·.readReg 3) (placed 0 0x02010328 [(1, 1), (2, 0x0100)]) = some 0x0000 := by decide
/-- A24: logical. -/
theorem test_shr : seen (·.readReg 3) (placed 0 0x02010330 [(1, 0xFFFF), (2, 1)]) = some 0x7FFF := by decide
/-- A25: count 16. -/
theorem test_shr_count_16 : seen (·.readReg 3) (placed 0 0x02010330 [(1, 0x8000), (2, 16)]) = some 0x0000 := by decide
/-- A26. -/
theorem test_and : seen (·.readReg 3) (placed 0 0x02010338 [(1, 0xF0F0), (2, 0x3C3C)]) = some 0x3030 := by decide
/-- A28. -/
theorem test_or : seen (·.readReg 3) (placed 0 0x02010340 [(1, 0xF000), (2, 0x3C3C)]) = some 0xFC3C := by decide
/-- A31. -/
theorem test_not : seen (·.readReg 3) (placed 0 0x00010348 [(1, 0x1234)]) = some 0xEDCB := by decide
/-- A32. -/
theorem test_xor : seen (·.readReg 3) (placed 0 0x02010350 [(1, 0xFFFF), (2, 0x00FF)]) = some 0xFF00 := by decide
/-- I2: 255 is never -1. -/
theorem test_addi : seen (·.readReg 3) (placed 0 0xFF010358 [(1, 0x00FF)]) = some 0x01FE := by decide
/-- I5. -/
theorem test_subi : seen (·.readReg 3) (placed 0 0xFF010360 [(1, 0x0100)]) = some 0x0001 := by decide
/-- I6. -/
theorem test_muli : seen (·.readReg 3) (placed 0 0xFF010368 [(1, 0x0101)]) = some 0xFFFF := by decide
/-- I9. -/
theorem test_divi : seen (·.readReg 3) (placed 0 0xFF010370 [(1, 0xFFFF)]) = some 0x0101 := by decide
/-- I11. -/
theorem test_remi : seen (·.readReg 3) (placed 0 0x07010378 [(1, 0x0064)]) = some 0x0002 := by decide
/-- I15. -/
theorem test_shli : seen (·.readReg 3) (placed 0 0x08010380 [(1, 0x00FF)]) = some 0xFF00 := by decide
/-- I17: any count. -/
theorem test_shli_count_255 : seen (·.readReg 3) (placed 0 0xFF010380 [(1, 0xFFFF)]) = some 0x0000 := by decide
/-- I18. -/
theorem test_shri : seen (·.readReg 3) (placed 0 0x08010388 [(1, 0xFF00)]) = some 0x00FF := by decide
/-- A13: `x3` and `pc` stay. -/
theorem test_div_by_zero :
    outcome (placed 8 0x02010318 [(1, 7), (2, 0), (3, 9)]) = some (.panicked .divideByZero, 8, 9) := by decide
/-- A16. -/
theorem test_rem_by_zero :
    outcome (placed 8 0x02010320 [(1, 7), (2, 0), (3, 9)]) = some (.panicked .divideByZero, 8, 9) := by decide
/-- I10. -/
theorem test_divi_by_zero :
    outcome (placed 8 0x00010370 [(1, 5), (3, 9)]) = some (.panicked .divideByZero, 8, 9) := by decide
/-- I13. -/
theorem test_remi_by_zero :
    outcome (placed 8 0x00010378 [(1, 5), (3, 9)]) = some (.panicked .divideByZero, 8, 9) := by decide

/-! #### Move -/

/-- J36: the program counter wraps. -/
theorem test_move_at_top :
    seen (fun t => (t.readReg 2, t.pc)) (placed 0xFFFF 0x00010201 [(1, 9)]) = some (0x0009, 0x0000) := by decide
/-- M3. -/
theorem test_swap :
    seen (fun t => (t.readReg 1, t.readReg 2)) (placed 0 0x00010209 [(1, 0x1111), (2, 0x2222)]) = some (0x2222, 0x1111) := by decide
/-- M6: no extension. -/
theorem test_set :
    seen (·.readReg 5) (placed 0 0xFFFF0511 []) = some 0xFFFF := by decide
/-- M9: the address is read first; the last word is an ordinary one. -/
theorem test_ld :
    seen (·.readReg 1) ((placed 0 0x00010119 [(1, 0xFFFF)]).writeData 0xFFFF 0x0042) = some 0x0042 := by decide
/-- M10. -/
theorem test_ldi :
    seen (·.readReg 2) ((placed 0 0x01000221 []).writeData 0x0100 0xABCD) = some 0xABCD := by decide
/-- M14. -/
theorem test_ldc :
    seen (fun t => (t.readReg 2, t.readReg 3)) ((placed 0 0x03020129 [(1, 0x0010)]).writeCode 0x0010 0x12340511) = some (0x0511, 0x1234) := by decide
/-- M15: the upper half wins. -/
theorem test_ldc_same_destination :
    seen (·.readReg 2) ((placed 0 0x02020129 [(1, 0x0010)]).writeCode 0x0010 0x12340511) = some 0x1234 := by decide
/-- M11: the first operand is the address. -/
theorem test_st :
    seen (·.data) (placed 0 0x00020131 [(1, 0x0200), (2, 0x5555)]) = some [(0x0200, 0x5555)] := by decide
/-- M16. -/
theorem test_stc :
    seen (·.readCode 0x0010) (placed 0 0x03020139 [(1, 0x0010), (2, 0x0104), (3, 0)]) = some 0x00000104 := by decide
/-- M13: one word. -/
theorem test_memset :
    seen (·.data) (placed 0 0xBEEF0141 [(1, 0x0300)]) = some [(0x0300, 0xBEEF)] := by decide
/-- K1: pre-increment. -/
theorem test_push :
    seen (fun t => (t.stack, t.readReg 254)) (placed 0 0x00000749 [(7, 0x00AA)]) = some ([(0x0001, 0x00AA)], 0x0001) := by decide
/-- K6: the old pointer is stored. -/
theorem test_push_pointer :
    seen (fun t => (t.stack, t.readReg 254)) (placed 0 0x0000FE49 [(254, 0x0010)]) = some ([(0x0011, 0x0010)], 0x0011) := by decide
/-- K3. -/
theorem test_pushi :
    seen (fun t => (t.stack, t.readReg 254)) (placed 0 0xCAFE0051 [(254, 1)]) = some ([(0x0002, 0xCAFE)], 0x0002) := by decide
/-- K5: post-decrement, wrapping. -/
theorem test_pop :
    seen (fun t => (t.readReg 8, t.readReg 254)) ((placed 0 0x00000859 []).writeStack 0x0000 0x0033) = some (0x0033, 0xFFFF) := by decide
/-- K7: the pointer update is last. -/
theorem test_pop_pointer :
    seen (·.readReg 254) ((placed 0 0x0000FE59 [(254, 0x0010)]).writeStack 0x0010 0x9999) = some 0x000F := by decide

/-! #### Jump, at `pc` = 0x0040 -/

/-- J1. -/
theorem test_j :
    seen (·.pc) (placed 0x0040 0x01000002 []) = some 0x0100 := by decide
/-- J3. -/
theorem test_jl :
    seen (fun t => (t.pc, t.readReg 10)) (placed 0x0040 0x01000A0A []) = some (0x0100, 0x0041) := by decide
/-- J4. -/
theorem test_jr :
    seen (·.pc) (placed 0x0040 0x00000A12 [(10, 0x0200)]) = some 0x0200 := by decide
/-- J6: the target is read first. -/
theorem test_jrl :
    seen (fun t => (t.pc, t.readReg 10)) (placed 0x0040 0x000A0A1A [(10, 0x0200)]) = some (0x0200, 0x0041) := by decide
/-- J8: any value but zero is true. -/
theorem test_jt :
    seen (·.pc) (placed 0x0040 0x01000422 [(4, 0x8000)]) = some 0x0100 := by decide
/-- J9. -/
theorem test_jt_not :
    seen (·.pc) (placed 0x0040 0x01000422 []) = some 0x0041 := by decide
/-- J12: the predicate is read first. -/
theorem test_jtl :
    seen (fun t => (t.pc, t.readReg 255)) (placed 0x0040 0x0100FF2A [(255, 1)]) = some (0x0100, 0x0041) := by decide
/-- J11: the link is written all the same. -/
theorem test_jtl_not :
    seen (fun t => (t.pc, t.readReg 10)) (placed 0x0040 0x01000A2A []) = some (0x0041, 0x0041) := by decide
/-- J14. -/
theorem test_jrt :
    seen (·.pc) (placed 0x0040 0x000B0432 [(4, 1), (11, 0x0200)]) = some 0x0200 := by decide
/-- J15. -/
theorem test_jrt_not :
    seen (·.pc) (placed 0x0040 0x000B0432 [(11, 0x0200)]) = some 0x0041 := by decide
/-- J18: the target is read first. -/
theorem test_jrtl :
    seen (fun t => (t.pc, t.readReg 11)) (placed 0x0040 0x0B0B043A [(4, 1), (11, 0x0200)]) = some (0x0200, 0x0041) := by decide
/-- J17. -/
theorem test_jrtl_not :
    seen (fun t => (t.pc, t.readReg 10)) (placed 0x0040 0x0A0B043A [(11, 0x0200)]) = some (0x0041, 0x0041) := by decide
/-- J19. -/
theorem test_jf :
    seen (·.pc) (placed 0x0040 0x01000442 []) = some 0x0100 := by decide
/-- J20. -/
theorem test_jf_not :
    seen (·.pc) (placed 0x0040 0x01000442 [(4, 2)]) = some 0x0041 := by decide
/-- J21. -/
theorem test_jfl :
    seen (fun t => (t.pc, t.readReg 10)) (placed 0x0040 0x01000A4A []) = some (0x0100, 0x0041) := by decide
/-- J22. -/
theorem test_jfl_not :
    seen (fun t => (t.pc, t.readReg 10)) (placed 0x0040 0x01000A4A [(255, 7)]) = some (0x0041, 0x0041) := by decide
/-- J23. -/
theorem test_jrf :
    seen (·.pc) (placed 0x0040 0x000B0452 [(11, 0x0200)]) = some 0x0200 := by decide
/-- J24. -/
theorem test_jrf_not :
    seen (·.pc) (placed 0x0040 0x000B0452 [(4, 1), (11, 0x0200)]) = some 0x0041 := by decide
/-- J25. -/
theorem test_jrfl :
    seen (fun t => (t.pc, t.readReg 10)) (placed 0x0040 0x0A0B045A [(11, 0x0200)]) = some (0x0200, 0x0041) := by decide
/-- J26. -/
theorem test_jrfl_not :
    seen (fun t => (t.pc, t.readReg 10)) (placed 0x0040 0x0A0B045A [(4, 1), (11, 0x0200)]) = some (0x0041, 0x0041) := by decide
/-- J27. -/
theorem test_ift :
    seen (·.pc) (placed 0x0040 0x0C0B0462 [(4, 1), (11, 0x0200), (12, 0x0300)]) = some 0x0200 := by decide
/-- J28. -/
theorem test_ift_not :
    seen (·.pc) (placed 0x0040 0x0C0B0462 [(11, 0x0200), (12, 0x0300)]) = some 0x0300 := by decide
/-- J29. -/
theorem test_iff :
    seen (·.pc) (placed 0x0040 0x0C0B046A [(11, 0x0200), (12, 0x0300)]) = some 0x0200 := by decide
/-- J30. -/
theorem test_iff_not :
    seen (·.pc) (placed 0x0040 0x0C0B046A [(4, 5), (11, 0x0200), (12, 0x0300)]) = some 0x0300 := by decide
/-- J35: the targets are read first. -/
theorem test_iftl :
    seen (fun t => (t.pc, t.readReg 11)) (placed 0x0040 0x0C0B0B72 [(255, 1), (11, 0x0200), (12, 0x0300)]) = some (0x0200, 0x0041) := by decide
/-- J32. -/
theorem test_iftl_not :
    seen (fun t => (t.pc, t.readReg 10)) (placed 0x0040 0x0C0B0A72 [(11, 0x0200), (12, 0x0300)]) = some (0x0300, 0x0041) := by decide
/-- J33. -/
theorem test_iffl :
    seen (fun t => (t.pc, t.readReg 10)) (placed 0x0040 0x0C0B0A7A [(11, 0x0200), (12, 0x0300)]) = some (0x0200, 0x0041) := by decide
/-- J34. -/
theorem test_iffl_not :
    seen (fun t => (t.pc, t.readReg 10)) (placed 0x0040 0x0C0B0A7A [(255, 1), (11, 0x0200), (12, 0x0300)]) = some (0x0300, 0x0041) := by decide
/-- J37: the link wraps. -/
theorem test_link_at_top :
    seen (fun t => (t.pc, t.readReg 10)) (placed 0xFFFF 0x01000A0A []) = some (0x0100, 0x0000) := by decide
/-- J13: the implied predicate is the register implicit register 0 names. -/
theorem test_jtl_moved_predicate :
    seen (·.pc) ((placed 0x0040 0x01000A2A [(255, 1)]).writeImpl 0 20) = some 0x0041 := by decide

/-! #### Compare -/

/-- Register 4 after the comparison word `w`, from 0xFFFF. -/
def compared (w : CodeWord) (x1 x2 : Word) : Option Word :=
  seen (·.readReg 4) (placed 0 w [(1, x1), (2, x2), (4, 0xFFFF)])

/-- Q1, Q4, Q6. -/
theorem test_eq : [(5, 5), (0xFFFF, 1), (0, 0xFFFF)].map (fun p => compared 0x02010403 p.1 p.2) =
    [some 1, some 0, some 0] := by decide
/-- Q1, Q4, Q6. -/
theorem test_ne : [(5, 5), (0xFFFF, 1), (0, 0xFFFF)].map (fun p => compared 0x0201040B p.1 p.2) =
    [some 0, some 1, some 1] := by decide
/-- Q1, Q4, Q6. -/
theorem test_lt : [(5, 5), (0xFFFF, 1), (0, 0xFFFF)].map (fun p => compared 0x02010413 p.1 p.2) =
    [some 0, some 0, some 1] := by decide
/-- Q1, Q4, Q6. -/
theorem test_gt : [(5, 5), (0xFFFF, 1), (0, 0xFFFF)].map (fun p => compared 0x0201041B p.1 p.2) =
    [some 0, some 1, some 0] := by decide
/-- Q1, Q4, Q6. -/
theorem test_le : [(5, 5), (0xFFFF, 1), (0, 0xFFFF)].map (fun p => compared 0x02010423 p.1 p.2) =
    [some 1, some 0, some 1] := by decide
/-- Q1, Q4, Q6. -/
theorem test_ge : [(5, 5), (0xFFFF, 1), (0, 0xFFFF)].map (fun p => compared 0x0201042B p.1 p.2) =
    [some 1, some 1, some 0] := by decide
/-- Q7, Q8, Q10: the immediate 200 is zero-extended. -/
theorem test_eqi : [0x00C8, 0x00C7, 0xFFC8].map (fun x => compared 0xC8010433 x 0) =
    [some 1, some 0, some 0] := by decide
/-- Q7, Q8, Q10: the immediate 200 is zero-extended. -/
theorem test_nei : [0x00C8, 0x00C7, 0xFFC8].map (fun x => compared 0xC801043B x 0) =
    [some 0, some 1, some 1] := by decide
/-- Q7, Q8, Q10: the immediate 200 is zero-extended. -/
theorem test_lti : [0x00C8, 0x00C7, 0xFFC8].map (fun x => compared 0xC8010443 x 0) =
    [some 0, some 1, some 0] := by decide
/-- Q7, Q8, Q10: the immediate 200 is zero-extended. -/
theorem test_gti : [0x00C8, 0x00C7, 0xFFC8].map (fun x => compared 0xC801044B x 0) =
    [some 0, some 0, some 1] := by decide
/-- Q7, Q8, Q10: the immediate 200 is zero-extended. -/
theorem test_lei : [0x00C8, 0x00C7, 0xFFC8].map (fun x => compared 0xC8010453 x 0) =
    [some 1, some 1, some 0] := by decide
/-- Q7, Q8, Q10: the immediate 200 is zero-extended. -/
theorem test_gei : [0x00C8, 0x00C7, 0xFFC8].map (fun x => compared 0xC801045B x 0) =
    [some 1, some 0, some 1] := by decide

/-! #### Misc -/

/-- X2: the register arguments of halt are ignored; `pc` stays. -/
theorem test_system_halt : outcome (placed 9 0x09070104 []) = some (.halted, 9, 0) := by decide
/-- X4: zero-extended. -/
theorem test_system_getc : seen (fun t => (t.readReg 5, t.stdin.pending, t.pc))
    (({ placed 0 0x00050204 [] with stdin := ⟨[0xFF], false⟩ } : State)) = some (0x00FF, [], 1) := by decide
/-- X5: at the end the instruction completes; its value is open, so only what else it does is seen. -/
theorem test_system_getc_end : seen (fun t => (t.pc, t.draws, t.status)) (placed 0 0x00050204 []) =
    some (1, 1, .running) := by decide
/-- V6: an open stream without a byte, no step. -/
theorem test_system_getc_waits : seen (·.pc) (({ placed 0 0x00050204 [] with stdin := ⟨[], false⟩ } : State)) = none := by
  decide
/-- X7: the low byte, after what was there. -/
theorem test_system_putc : seen (·.stdout) (({ placed 0 0x00050304 [(5, 0xFF00)] with stdout := [0x48] } : State)) =
    some [0x48, 0x00] := by decide
/-- X8 to X11. -/
theorem test_system_panic : [0x00000404, 0x00000004, 0x00000504, 0x0000FF04].map (fun w => outcome (placed 9 w [])) =
    [some (.panicked .requested, 9, 0), some (.panicked .undefinedSystemOperation, 9, 0),
     some (.panicked .undefinedSystemOperation, 9, 0), some (.panicked .undefinedSystemOperation, 9, 0)] := by decide
/-- X12: the stack pointer moves. -/
theorem test_implicit_set :
    seen (fun t => (t.readImpl 1, t.spIdx)) (placed 0 0x0006010C [(6, 0x12C8)]) = some (0xC8, 200) := by decide
/-- X16: both upper bytes are ignored. -/
theorem test_implicit_indirect_set :
    seen (·.readImpl 1) (placed 0 0x00060714 [(7, 0xAB01), (6, 0xCDC8)]) = some 0xC8 := by decide
/-- X18: zero-extended. -/
theorem test_implicit_get :
    seen (·.readReg 8) (placed 0 0x0001081C [(8, 0xFFFF)]) = some 0x00FE := by decide
/-- X21: the index is read first. -/
theorem test_implicit_indirect_get :
    seen (·.readReg 7) (placed 0 0x00070724 [(7, 1)]) = some 0x00FE := by decide

/-! #### Reset, undefined words and the host's word -/

/-- R281: `pc`, status, the implicit registers 0 and 1. -/
theorem test_reset : (State.reset.pc, State.reset.status, State.reset.readImpl 0, State.reset.readImpl 1) =
    (0, .running, 255, 254) := by decide
/-- E10: nothing loaded, the word fetched from reset is 0 and adds r0 to itself; no panic. -/
theorem test_reset_step : outcome State.reset = some (.running, 1, 0) := by decide
/-- E3, E4: an undefined word takes its panic, `pc` stays. -/
theorem test_undefined_word : outcome (placed 9 0xFFFFFFFF []) = some (.panicked .undefinedGroup, 9, 0) ∧
    outcome (placed 9 0x00000090 []) = some (.panicked .undefinedOperation, 9, 0) := by decide
/-- The host's placing of a word (log 35): the first instruction after reset. -/
theorem test_fetch_word : seen (·.readReg 5) (State.reset.withFetchWord 32 0x12340511) = some 0x1234 ∧
    decodeTableWord 32 0x12340511 = some (.set 5 0x1234) ∧ decodeTableWord 32 5 = none := by decide

/-! ### Witnesses: the hypotheses of each statement are met, at the boundary values of their clauses -/

/-- `EncodeOfDecode`, `UnusedFieldsAreIgnored`: a word with an unused field that is not zero, and the same word with
that field zero. -/
theorem witness_unused_field : decode 0xAB010348 = .instr (.not 3 1) ∧
    (0xAB010348 : CodeWord) &&& Op.usedMask .not = 0x00010348 &&& Op.usedMask .not ∧
    encode (.not 3 1) = 0x00010348 := by decide
/-- `SelectedByByteZeroAlone`: words that agree in byte 0 and nowhere else, a defined and an undefined one. -/
theorem witness_same_byte_zero : (0xFF000A12 : CodeWord).toNat % 256 = (0x00FFF512 : CodeWord).toNat % 256 ∧
    (0x00000005 : CodeWord).toNat % 256 = (0xFFFFFF05 : CodeWord).toNat % 256 := by decide
/-- `SelectedBy` in `AddSubMulRegisters`, `AddSubMulImmediates`, `BitwiseOperations`, `ImplicitSets`: words whose byte 0
is the one named. -/
theorem witness_selected : (0x02010300 : CodeWord).toNat % 256 = (0x00 : Byte).toNat ∧
    (0xFFFFFF68 : CodeWord).toNat % 256 = (0x68 : Byte).toNat ∧
    (0xAB010348 : CodeWord).toNat % 256 = (0x48 : Byte).toNat ∧
    (0x00060714 : CodeWord).toNat % 256 = (0x14 : Byte).toNat := by decide
/-- `AssembledLinesDecodeAsWritten`: a line that assembles. -/
theorem witness_assembled : assemble ⟨"j", [.imm 65535]⟩ = some 0xFFFF0002 := by decide
/-- `UndefinedGroupsAndArithmeticPanic`: groups 5 and 7, arithmetic operations 18 and 31, as words and fetched. -/
theorem witness_undefined_groups :
    (0x00000005 : CodeWord).toNat % 8 ≥ 5 ∧ (0xFFFFFFFF : CodeWord).toNat % 8 ≥ 5 ∧
    ((0x00000090 : CodeWord).toNat % 8 = 0 ∧ (0x00000090 : CodeWord).toNat / 8 % 32 ≥ 18) ∧
    ((placed 0 0x00000005 []).status = .running ∧ (placed 0 0x00000005 []).fetch.toNat % 8 ≥ 5) ∧
    (placed 0 0x000000F8 []).status = .running ∧ (placed 0 0x000000F8 []).fetch.toNat % 8 = 0 ∧
    (placed 0 0x000000F8 []).fetch.toNat / 8 % 32 ≥ 18 := by decide
/-- `UndefinedOperationsPanic`: the first unlisted operation of each of the four groups. -/
theorem witness_undefined_operations :
    ((placed 0 0x00000061 []).fetch.toNat % 8 = 1 ∧ (placed 0 0x00000061 []).fetch.toNat / 8 % 32 = 12) ∧
    ((placed 0 0x00000082 []).fetch.toNat % 8 = 2 ∧ (placed 0 0x00000082 []).fetch.toNat / 8 % 32 = 16) ∧
    ((placed 0 0x00000063 []).fetch.toNat % 8 = 3 ∧ (placed 0 0x00000063 []).fetch.toNat / 8 % 32 = 12) ∧
    ((placed 0 0x0000002C []).fetch.toNat % 8 = 4 ∧ (placed 0 0x0000002C []).fetch.toNat / 8 % 32 = 5) ∧
    (placed 0 0x0000002C []).status = .running := by decide
/-- `DivideByNonzero`: divisors 1 and 255; `DivideByZeroPanics`: divisor 0. -/
theorem witness_divisors : (placed 0 0 [(2, 1)]).readReg 2 ≠ 0 ∧ (255 : Byte) ≠ 0 ∧ (1 : Byte) ≠ 0 ∧
    (placed 0 0 [(2, 0)]).readReg 2 = 0 := by decide
/-- `LoadFromCode`, `EveryRegisterReadsBack`: two different registers. -/
theorem witness_registers_differ : (2 : RegNum) ≠ 3 := by decide
/-- `StoredCodeIsFetchedNext`: a `stc` to the next address, also where that address wraps to 0. -/
theorem witness_stored_code :
    ((placed 4 0x03020139 [(1, 5)]).status = .running ∧
      decode (placed 4 0x03020139 [(1, 5)]).fetch = .instr (.stc 1 2 3) ∧
      ((placed 4 0x03020139 [(1, 5)]).readReg 1).toNat = ((placed 4 0x03020139 [(1, 5)]).pc.toNat + 1) % 65536) ∧
    decode (placed 0xFFFF 0x03020139 [(1, 0)]).fetch = .instr (.stc 1 2 3) ∧
    ((placed 0xFFFF 0x03020139 [(1, 0)]).readReg 1).toNat =
      ((placed 0xFFFF 0x03020139 [(1, 0)]).pc.toNat + 1) % 65536 := by decide
/-- `PopsLoadThenDecrement`, `PopUndoesPush`: a destination that is not the stack pointer. -/
theorem witness_pop_destination : (8 : RegNum) ≠ State.reset.readImpl 1 := by decide
/-- `JumpsIfTrue`, `JumpsIfFalse`: predicates that are zero and that are not, the implied one too. -/
theorem witness_predicates :
    ((placed 0 0 [(4, 0x8000), (255, 1)]).readReg 4 ≠ 0 ∧
      (placed 0 0 [(4, 0x8000), (255, 1)]).readReg ((placed 0 0 [(4, 0x8000), (255, 1)]).readImpl 0) ≠ 0) ∧
    (placed 0 0 []).readReg 4 = 0 ∧ (placed 0 0 []).readReg ((placed 0 0 []).readImpl 0) = 0 := by decide
/-- `GetcTakesTheNextByte`: a byte pending. -/
theorem witness_getc_byte : ({ State.reset with stdin := ⟨[0x41, 0x42], false⟩ } : State).stdin.pending =
    0x41 :: [0x42] := by decide
/-- `GetcAtTheEndStoresAnOpenValue`: an empty closed stream. -/
theorem witness_getc_end : State.reset.stdin.pending = [] ∧ State.reset.stdin.closed = true := by decide
/-- `GetcWaitsForTheHost`: an empty open stream. -/
theorem witness_getc_waits : ({ State.reset with stdin := ⟨[], false⟩ } : State).stdin.pending = [] ∧
    ({ State.reset with stdin := ⟨[], false⟩ } : State).stdin.closed = false := by decide
/-- `SystemPanics`: the indices 0, 5 and 255. -/
theorem witness_system_indices : ((0 : Byte).toNat = 0 ∨ (0 : Byte).toNat ≥ 5) ∧
    ((5 : Byte).toNat = 0 ∨ (5 : Byte).toNat ≥ 5) ∧ ((255 : Byte).toNat = 0 ∨ (255 : Byte).toNat ≥ 5) := by decide
/-- `ImplicitSets`, `ImplicitGets`: an index register whose low byte names the implicit register, upper byte not zero;
the two used implicit registers. -/
theorem witness_implicit_index : (1 : ImplNum).toNat = ((placed 0 0 [(7, 0xAB01)]).readReg 7).toNat % 256 ∧
    (1 : ImplNum) = config.implStackIndex ∧ (0 : ImplNum) = config.implPredicateIndex := by decide
/-- `StackPointerMoves`: r200 named instead of r254. -/
theorem witness_new_pointer : (200 : RegNum).toNat = ((placed 0 0 [(6, 0x00C8)]).readReg 6).toNat % 256 ∧
    (200 : RegNum) ≠ (placed 0 0 [(6, 0x00C8)]).readImpl 1 := by decide
/-- `MemoryReadsBack`: the two ends of a domain. -/
theorem witness_addresses_differ : (0xFFFF : Word) ≠ 0x0000 := by decide
/-- `CanonicalMemoriesAreEqual`: memories written in two orders, one of them with a word overwritten by zero. -/
theorem witness_canonical : Mem.wf (Mem.write (Mem.write [] 65535 7) 0 (5 : Word)) = true ∧
    Mem.wf (Mem.write (Mem.write (Mem.write (Mem.write [] 0 5) 9 1) 9 0) 65535 (7 : Word)) = true ∧
    ∀ a < 65536, Mem.read (Mem.write (Mem.write [] 65535 7) 0 (5 : Word)) a =
      Mem.read (Mem.write (Mem.write (Mem.write (Mem.write [] 0 5) 9 1) 9 0) 65535 (7 : Word)) a :=
  ⟨by decide, by decide, fun _ _ => rfl⟩
/-- `StateAfterReset`: an unused implicit register. -/
theorem witness_unused_implicit : (2 : ImplNum) ≠ 0 ∧ (2 : ImplNum) ≠ 1 := by decide
/-- `LoadedProgramIsInCode`: the last word of a program that fills the whole of code memory. -/
theorem witness_full_program : 65535 < (List.replicate 65536 (0 : CodeWord)).length ∧
    (List.replicate 65536 (0 : CodeWord)).length ≤ 65536 ∧
    65535 < (List.replicate 65536 (Instr.j 0)).length ∧ (List.replicate 65536 (Instr.j 0)).length ≤ 65536 := by
  simp only [List.length_replicate]; omega
/-- `StepRunsTheDecodedInstruction`, `PlacedWordRunsNext`, `EveryInstructionKeepsItsFootprint`,
`StateIsWrittenOnlyByItsWriters`, `MemoriesAreReadOnlyByTheirReaders`, `OtherInstructionsAdvance`: a running machine
whose word decodes, and a step that goes on. -/
theorem witness_running_step : (placed 0 0x02010300 []).status = .running ∧
    decode ((placed 0 0x02010300 []).readCode (placed 0 0x02010300 []).pc) = .instr (.add 3 1 2) ∧
    (∃ t, exec (.add 3 1 2) (placed 0 0x02010300 []) = .next t ∧ t.status = .running) ∧
    isJump (.add 3 1 2) = false := ⟨by decide, by decide, ⟨_, rfl, by decide⟩, by decide⟩
/-- `StoppedMachineMakesNoStep`: both kinds. -/
theorem witness_stopped : ({ State.reset with status := .halted } : State).status = .halted ∧
    ({ State.reset with status := .panicked .requested } : State).status = .panicked .requested := by decide
/-- `RunningMachineHasANextStep`: the case of a step, and the case of the waiting getc. -/
theorem witness_running_cases : State.reset.status = .running ∧
    ({ placed 0 0x00050204 [] with stdin := ⟨[], false⟩ } : State).status = .running ∧
    decode ({ placed 0 0x00050204 [] with stdin := ⟨[], false⟩ } : State).fetch = .instr (.system 2 5 0) := by decide
/-- `StepKeepsMemoriesCanonical`: a canonical state with a step that stores. -/
theorem witness_canonical_step : (placed 0 0x00020131 [(1, 0x0200), (2, 0x5555)]).wf = true ∧
    (step (placed 0 0x00020131 [(1, 0x0200), (2, 0x5555)])) matches .next _ := by decide
/-- `PanicWritesNothing`: a step that ends panicked. -/
theorem witness_panic : (placed 0 0x02010318 [(1, 7)]).status = .running ∧
    ∃ t, step (placed 0 0x02010318 [(1, 7)]) = .next t ∧ t.status = .panicked .divideByZero :=
  ⟨by decide, _, rfl, rfl⟩
/-- `PanicsExactlyOnTheListedCauses`: a state for each cause, and one that has none. -/
theorem witness_panic_causes :
    [panicCause (placed 0 0x00000005 []), panicCause (placed 0 0x0000002C []), panicCause (placed 0 0x02010318 []),
      panicCause (placed 0 0x00010378 []), panicCause (placed 0 0x00000404 []), panicCause (placed 0 0x00000504 []),
      panicCause (placed 0 0x02010318 [(2, 1)])] =
    [some .undefinedGroup, some .undefinedOperation, some .divideByZero, some .divideByZero, some .requested,
      some .undefinedSystemOperation, none] := by decide
/-- `HaltsExactlyOnSystemOne`: the word that halts, with register arguments, and one that does not. -/
theorem witness_halt : (placed 0 0x09070104 []).fetch.toNat % 65536 = 0x0104 ∧
    (placed 0 0x00000204 []).fetch.toNat % 65536 ≠ 0x0104 := by decide
/-- `StreamsKeepTheirOrder`: a run of one step that takes a byte. -/
theorem witness_run : ∃ t, core.run 1 ({ placed 0 0x00050204 [] with stdin := ⟨[0x41], false⟩ } : State) = .next t :=
  ⟨_, rfl⟩

end Sys2Proof.Machine
end

section
/-!
PROOFS, the encoding family. The opcode map lists every operation at one position, its own group and number, so what
`selectOp` finds at a value of byte 0 is the operation with that byte 0; and decoding, said once per answer through
`selectOp`.
-/

namespace Sys2Proof

/-! ### The opcode map, read from a position to the operation there -/

/-- The map of a group lists operations of that group only, none twice (R90). -/
theorem opmap_group_nodup {g : Nat} {ops : List Op} (h : opmap g = some ops) :
    (∀ o ∈ ops, o.group = g) ∧ ops.Nodup := by
  unfold opmap at h
  split at h
  case h_6 => cases h
  all_goals cases h; decide

/-- The position at which a group's map lists an operation is the operation's own group and number (R89, R90). -/
theorem group_number_of_opmap {g n : Nat} {ops : List Op} {o : Op} (hg : opmap g = some ops)
    (hn : ops[n]? = some o) : o.group = g ∧ o.number = n := by
  obtain ⟨hgroup, hnodup⟩ := opmap_group_nodup hg
  obtain ⟨hlt, rfl⟩ := List.getElem?_eq_some_iff.mp hn
  have hog := hgroup _ (List.getElem_mem hlt)
  refine ⟨hog, ?_⟩
  rw [Op.number, hog, hg]
  exact hnodup.idxOf_getElem n hlt

/-- The operation that a value of byte 0 selects has the group and the number that the value is made of (R88). -/
theorem group_number_of_selectOp {c : Byte} {o : Op} (h : selectOp c = .ok o) :
    o.group = c.toNat % 8 ∧ o.number = c.toNat / 8 := by
  unfold selectOp at h
  split at h
  · cases h
  next hg =>
    split at h
    · cases h
    next hn =>
      cases h
      exact group_number_of_opmap hg hn

/-! ### Decoding, by what byte 0 selects -/

/-- Where byte 0 selects an operation, decoding takes its operands from the word. -/
theorem decode_of_selectOp_ok {w : CodeWord} {o : Op} (h : selectOp (byte0 w) = .ok o) :
    decode w = .instr (buildInstr o w) := by
  rw [decode_eq_select, h]

/-- Where byte 0 selects nothing, decoding gives the panic it raises. -/
theorem decode_of_selectOp_error {w : CodeWord} {r : PanicReason} (h : selectOp (byte0 w) = .error r) :
    decode w = .undefined r := by
  rw [decode_eq_select, h]

/-- A word that decodes has the byte 0 that selects its instruction's operation. -/
theorem selectOp_of_decode {w : CodeWord} {i : Instr} (h : decode w = .instr i) :
    selectOp (byte0 w) = .ok i.op := by
  cases hs : selectOp (byte0 w) with
  | error r => rw [decode_of_selectOp_error hs] at h; cases h
  | ok o => rw [decode_of_selectOp_ok hs] at h; cases h; rw [op_buildInstr]

/-- R88: words with the same byte 0 decode to the same operation, or to the same panic. -/
theorem decode_same_op_of_byte0_eq {w w' : CodeWord} (h : byte0 w = byte0 w') :
    (∃ i i', decode w = .instr i ∧ decode w' = .instr i' ∧ i.op = i'.op) ∨
    (∃ r, decode w = .undefined r ∧ decode w' = .undefined r) := by
  cases hs : selectOp (byte0 w) with
  | error r => exact .inr ⟨r, decode_of_selectOp_error hs, decode_of_selectOp_error (h ▸ hs)⟩
  | ok o =>
    exact .inl ⟨_, _, decode_of_selectOp_ok hs, decode_of_selectOp_ok (h ▸ hs), by simp only [op_buildInstr]⟩

/-- Settles O3. Decoding goes through `selectOp` of byte 0, and what that finds is listed in the opcode map at its own
group and number, which are the two parts of byte 0. -/
theorem selectedByByteZeroAlone : Obligations.SelectedByByteZeroAlone := by
  refine ⟨fun w w' h => ?_, fun w i h => ?_⟩
  · exact decode_same_op_of_byte0_eq (BitVec.eq_of_toNat_eq (by rw [byte0_toNat, byte0_toNat, h]))
  · obtain ⟨hgroup, hnumber⟩ := group_number_of_selectOp (selectOp_of_decode h)
    rw [byte0_toNat] at hgroup hnumber
    omega

end Sys2Proof
end

section
/-!
PROOFS, the arithmetic family without division and shifts. Each instruction of it is a write-back, so what is left of
each claim is the value written; and its byte 0 selects it with the three fields of the word as operands.
-/

namespace Sys2Proof

/-! ### The fields of a word as the table of R81 divides them out -/

theorem b1_eq_ofNat (w : CodeWord) : b1 w = BitVec.ofNat 8 (w.toNat / 256) :=
  BitVec.eq_of_toNat_eq (by rw [b1_toNat, BitVec.toNat_ofNat])

theorem b2_eq_ofNat (w : CodeWord) : b2 w = BitVec.ofNat 8 (w.toNat / 65536) :=
  BitVec.eq_of_toNat_eq (by rw [b2_toNat, BitVec.toNat_ofNat])

theorem b3_eq_ofNat (w : CodeWord) : b3 w = BitVec.ofNat 8 (w.toNat / 16777216) := by
  have := w.isLt
  exact BitVec.eq_of_toNat_eq (by rw [b3_toNat, BitVec.toNat_ofNat]; omega)

/-! ### The values written, as numbers -/

/-- The pseudocode of R125, which adds 65536 so that the difference is not negative. -/
theorem toNat_sub_word (x y : Word) : (x - y).toNat = (x.toNat + 65536 - y.toNat) % 65536 := by bv_omega

end Sys2Proof

namespace Sys2Proof.Machine

/-- The byte 0 of an operation selects it, with the operands that `buildInstr` takes from the word (R88). -/
theorem selectedBy_byte0 (o : Op) {mk : Byte → Byte → Byte → Instr}
    (hmk : ∀ w, buildInstr o w = mk (b1 w) (b2 w) (b3 w)) : SelectedBy o.byte0 mk := by
  intro w hw
  have hbyte : byte0 w = o.byte0 := BitVec.eq_of_toNat_eq (by rw [byte0_toNat, hw])
  rw [decode_of_selectOp_ok (hbyte ▸ selectOp_byte0 o), hmk, b1_eq_ofNat, b2_eq_ofNat, b3_eq_ofNat]

/-- An instruction whose meaning is a write-back of a word with the bits `f` completes with those bits in its
destination and changes nothing else. -/
theorem completes_bits_of_writeBack {i : Instr} {s : State} {d : RegNum} {v : Word} {f : Nat → Bool}
    (h : exec i s = writeBack d v s) (hv : ∀ k < 16, v.getLsbD k = f k) :
    Completes i s fun t => Advanced s t ∧ ChangesOnly { regs := [d] } s t ∧ ∀ k < 16, (t.readReg d).getLsbD k = f k := by
  obtain ⟨t, ht, hd, hpc, hframe⟩ := writesReg_of_writeBack h rfl
  exact ⟨t, ht, hpc, hframe, BitVec.eq_of_toNat_eq hd ▸ hv⟩

/-- Settles O12. The three meanings are write-backs of a word sum, difference and product, whose numbers are those
of R124 to R126. -/
theorem addSubMulRegisters : Obligations.AddSubMulRegisters := by
  refine ⟨selectedBy_byte0 .add fun _ => rfl, selectedBy_byte0 .sub fun _ => rfl, selectedBy_byte0 .mul fun _ => rfl,
    fun s d a b => ⟨?add, ?sub, ?mul⟩⟩
  case add => exact writesReg_of_writeBack rfl (BitVec.toNat_add ..)
  case sub => exact writesReg_of_writeBack rfl (toNat_sub_word ..)
  case mul => exact writesReg_of_writeBack rfl (BitVec.toNat_mul ..)

/-- Settles O13. The second operand is the zero-extended immediate, whose number is the immediate's own; the rest is
as for the register forms. -/
theorem addSubMulImmediates : Obligations.AddSubMulImmediates := by
  refine ⟨selectedBy_byte0 .addi fun _ => rfl, selectedBy_byte0 .subi fun _ => rfl,
    selectedBy_byte0 .muli fun _ => rfl, fun s d a n => ?_⟩
  rw [← zext16_toNat n]
  refine ⟨?addi, ?subi, ?muli⟩
  case addi => exact writesReg_of_writeBack rfl (BitVec.toNat_add ..)
  case subi => exact writesReg_of_writeBack rfl (toNat_sub_word ..)
  case muli => exact writesReg_of_writeBack rfl (BitVec.toNat_mul ..)

/-- Settles O14. The four meanings are write-backs of a bitwise operation; `not` is built from the first two fields
alone. -/
theorem bitwiseOperations : Obligations.BitwiseOperations := by
  refine ⟨selectedBy_byte0 .and fun _ => rfl, selectedBy_byte0 .or fun _ => rfl, selectedBy_byte0 .not fun _ => rfl,
    selectedBy_byte0 .xor fun _ => rfl, fun s d a b => ⟨?and, ?or, ?not, ?xor⟩⟩
  case and => exact completes_bits_of_writeBack rfl fun _ _ => BitVec.getLsbD_and
  case or => exact completes_bits_of_writeBack rfl fun _ _ => BitVec.getLsbD_or
  case not => exact completes_bits_of_writeBack rfl fun k hk => by simp [hk]
  case xor => exact completes_bits_of_writeBack rfl fun _ _ => BitVec.getLsbD_xor

end Sys2Proof.Machine
end

section
/-!
PROOFS, the miscellaneous family: the implicit sets. Both are one write of an implicit register followed by the advance
of pc; the register named and the byte stored are all that tells them apart.
-/

namespace Sys2Proof.Machine

/-- An instruction whose meaning is the store of a low byte in implicit register `k` completes with that byte there and
changes nothing else. -/
theorem completes_of_writeImpl_lowByte {i : Instr} {s : State} {k : ImplNum} {v : Word}
    (h : exec i s = .next (s.writeImpl k (lowByte v)).advance) :
    Completes i s fun t => (t.readImpl k).toNat = v.toNat % 256 ∧ Advanced s t ∧ ChangesOnly { impl := [k] } s t := by
  refine ⟨_, h, by simp, advanced_of_pc rfl, ?frame⟩
  exact changesOnly_advance (changesOnly_writeImpl (changesOnly_rfl _ s) k _ (List.mem_singleton_self k))

/-- The index register names the implicit register whose number is its low byte (R237). -/
theorem lowByte_eq_of_toNat {k : ImplNum} {v : Word} (h : k.toNat = v.toNat % 256) : lowByte v = k :=
  BitVec.eq_of_toNat_eq (by rw [lowByte_toNat, h])

/-- Settles O39. Both sets store a low byte in one implicit register; the stack pointer and the predicate are by
definition the registers that the implicit registers 1 and 0 name, so what was stored there names them next. -/
theorem implicitSets : Obligations.ImplicitSets := by
  refine ⟨selectedBy_byte0 .implicitSet fun _ => rfl, selectedBy_byte0 .implicitIndirectSet fun _ => rfl,
    fun s r => ⟨fun k => ?immediate, fun ri k hk => ?indirect⟩⟩
  case immediate =>
    obtain ⟨t, ht, hstored, hpc, hframe⟩ := completes_of_writeImpl_lowByte (i := .implicitSet k r) rfl
    refine ⟨t, ht, hstored, ?stackPointer, ?predicate, hpc, hframe⟩
    case stackPointer => rintro rfl; exact hstored
    case predicate => rintro rfl; exact hstored
  case indirect =>
    obtain rfl := lowByte_eq_of_toNat hk
    exact completes_of_writeImpl_lowByte rfl

end Sys2Proof.Machine
end

section
/-!
PROOFS, the exceptions family: the undefined encodings. A group with no map and an operation number past the end of its
group's map select nothing, and a running machine that fetches an undefined word takes its panic.
-/

namespace Sys2Proof

/-! ### Values of byte 0 that select nothing -/

/-- Groups 5 and up have no map (R96). -/
theorem opmap_eq_none {g : Nat} (h : 5 ≤ g) : opmap g = none := by
  obtain ⟨k, rfl⟩ := Nat.exists_eq_add_of_le' h
  rfl

/-- A byte 0 whose group has no map selects nothing, whatever its operation number. -/
theorem selectOp_of_opmap_none {c : Byte} (hg : opmap (c.toNat % 8) = none) :
    selectOp c = .error .undefinedGroup := by
  rw [selectOp, hg]

/-- A byte 0 whose operation number is past the end of its group's map selects nothing (R97, R98). -/
theorem selectOp_of_length_le {c : Byte} {ops : List Op} (hg : opmap (c.toNat % 8) = some ops)
    (hn : ops.length ≤ c.toNat / 8) : selectOp c = .error .undefinedOperation := by
  simp only [selectOp, hg, List.getElem?_eq_none hn]

/-! ### Words that decode to no instruction -/

/-- R96: a word with group 5 to 7 is undefined as a group. -/
theorem decode_undefinedGroup {w : CodeWord} (hg : w.toNat % 8 ≥ 5) : decode w = .undefined .undefinedGroup := by
  have hbyte : 5 ≤ (byte0 w).toNat % 8 := by rw [byte0_toNat]; omega
  exact decode_of_selectOp_error (selectOp_of_opmap_none (opmap_eq_none hbyte))

/-- R97, R98: a word whose operation number is past the end of its group's map is undefined as an operation. -/
theorem decode_undefinedOperation {w : CodeWord} {g : Nat} {ops : List Op} (hops : opmap g = some ops)
    (hg : w.toNat % 8 = g) (hn : ops.length ≤ w.toNat / 8 % 32) : decode w = .undefined .undefinedOperation := by
  have hgroup : (byte0 w).toNat % 8 = g := by rw [byte0_toNat]; omega
  have hnumber : ops.length ≤ (byte0 w).toNat / 8 := by rw [byte0_toNat]; omega
  exact decode_of_selectOp_error (selectOp_of_length_le (hgroup ▸ hops) hnumber)

end Sys2Proof

namespace Sys2Proof.Machine

/-- A running machine that fetches an undefined word takes its panic, which changes the status alone (R252). -/
theorem step_of_undefined {s : State} {r : PanicReason} (hs : s.status = .running)
    (hd : decode s.fetch = .undefined r) : step s = .next { s with status := .panicked r } := by
  rw [step_of_running hs, hd]

/-- Settles O10. Groups 5 to 7 have no map and the map of group 0 has 18 operations, so such a word decodes to the
panic, which the step takes. -/
theorem undefinedGroupsAndArithmeticPanic : Obligations.UndefinedGroupsAndArithmeticPanic := by
  have arithmetic : ∀ w : CodeWord, w.toNat % 8 = 0 → w.toNat / 8 % 32 ≥ 18 →
      decode w = .undefined .undefinedOperation := fun _ => decode_undefinedOperation (ops := opmapArithmetic) rfl
  refine ⟨fun _ => decode_undefinedGroup, arithmetic, fun s hs hg => ?group, fun s hs hg hn => ?operation⟩
  case group => exact ⟨_, step_of_undefined hs (decode_undefinedGroup hg), rfl⟩
  case operation => exact ⟨_, step_of_undefined hs (arithmetic s.fetch hg hn), rfl⟩

end Sys2Proof.Machine
end

section
/-!
PROOFS, the encoding family: the round trip of encoding and decoding. A word is its four bytes, and what an instruction
keeps of each byte is what the used mask of its operation keeps, so both directions are read off byte by byte.
-/

namespace Sys2Proof

/-! ### Words, byte by byte -/

/-- Words with the same four bytes are equal. -/
theorem codeWord_ext {w w' : CodeWord} (h0 : byte0 w = byte0 w') (h1 : b1 w = b1 w') (h2 : b2 w = b2 w')
    (h3 : b3 w = b3 w') : w = w' := by
  rw [← packWord_bytes w, h0, h1, h2, h3, packWord_bytes]

@[simp] theorem byte0_and (w m : CodeWord) : byte0 (w &&& m) = byte0 w &&& byte0 m := BitVec.extractLsb'_and
@[simp] theorem b1_and (w m : CodeWord) : b1 (w &&& m) = b1 w &&& b1 m := BitVec.extractLsb'_and
@[simp] theorem b2_and (w m : CodeWord) : b2 (w &&& m) = b2 w &&& b2 m := BitVec.extractLsb'_and
@[simp] theorem b3_and (w m : CodeWord) : b3 (w &&& m) = b3 w &&& b3 m := BitVec.extractLsb'_and

/-- The lower byte of the 16-bit immediate is `b2` (R81). -/
theorem imm16_lower (w : CodeWord) : (imm16 w).extractLsb' 0 8 = b2 w := by
  apply BitVec.eq_of_toNat_eq
  simp [imm16_toNat, b2_toNat, BitVec.extractLsb'_toNat]

/-- The upper byte of the 16-bit immediate is `b3` (R81). -/
theorem imm16_upper (w : CodeWord) : (imm16 w).extractLsb' 8 8 = b3 w := by
  have := w.isLt
  apply BitVec.eq_of_toNat_eq
  simp [imm16_toNat, b3_toNat, BitVec.extractLsb'_toNat, Nat.shiftRight_eq_div_pow]
  omega

/-! ### What an operation uses of a word -/

/-- Byte 0 is used by every operation (R82). -/
theorem byte0_usedMask (o : Op) : byte0 o.usedMask = BitVec.allOnes 8 := by cases o <;> rfl

/-- The fields of the instruction built from a word are the word's own fields, each kept or zero as the used mask of
the operation says (R82, R100). -/
theorem fields_buildInstr (o : Op) (w : CodeWord) :
    (buildInstr o w).fields = (b1 w &&& b1 o.usedMask, b2 w &&& b2 o.usedMask, b3 w &&& b3 o.usedMask) := by
  have kept : ∀ c : Byte, c &&& 255 = c := fun _ => BitVec.and_allOnes
  have zero : ∀ c : Byte, c &&& 0 = 0 := fun _ => BitVec.and_zero
  cases o with
  | set | ldi | memset | jl | jt | jtl | jf | jfl =>
    show (b1 w, (imm16 w).extractLsb' 0 8, (imm16 w).extractLsb' 8 8) = (b1 w &&& 255, b2 w &&& 255, b3 w &&& 255)
    rw [imm16_lower, imm16_upper, kept, kept, kept]
  | pushi | j =>
    show (0, (imm16 w).extractLsb' 0 8, (imm16 w).extractLsb' 8 8) = (b1 w &&& 0, b2 w &&& 255, b3 w &&& 255)
    rw [imm16_lower, imm16_upper, zero, kept, kept]
  | push | pop | jr =>
    show (b1 w, 0, 0) = (b1 w &&& 255, b2 w &&& 0, b3 w &&& 0)
    rw [kept, zero, zero]
  | not | move | swap | ld | st | jrl | jrt | jrf | implicitSet | implicitIndirectSet | implicitGet
  | implicitIndirectGet =>
    show (b1 w, b2 w, 0) = (b1 w &&& 255, b2 w &&& 255, b3 w &&& 0)
    rw [kept, kept, zero]
  | _ =>
    show (b1 w, b2 w, b3 w) = (b1 w &&& 255, b2 w &&& 255, b3 w &&& 255)
    rw [kept, kept, kept]

/-! ### What a word decodes to -/

/-- A word whose byte 0 is that of an operation decodes to that operation with the word's operands. -/
theorem decode_of_byte0 {w : CodeWord} {o : Op} (h : byte0 w = o.byte0) : decode w = .instr (buildInstr o w) :=
  decode_of_selectOp_ok (h ▸ selectOp_byte0 o)

/-- A word that decodes has byte 0 of its instruction's operation, and the instruction is built from the word. -/
theorem byte0_buildInstr_of_decode {w : CodeWord} {i : Instr} (h : decode w = .instr i) :
    byte0 w = i.op.byte0 ∧ i = buildInstr i.op w := by
  have hs := selectOp_of_decode h
  obtain ⟨hgroup, hnumber⟩ := group_number_of_selectOp hs
  constructor
  · apply BitVec.eq_of_toNat_eq
    have := (byte0 w).isLt
    rw [Op.byte0, BitVec.toNat_ofNat, hgroup, hnumber]
    omega
  · rw [decode_of_selectOp_ok hs] at h
    exact (Decoded.instr.inj h).symm

/-! ### The round trip -/

/-- Every instruction is built again from its own word: the family `Rebuild` over all constructors. -/
theorem buildInstr_encode (i : Instr) : buildInstr i.op (encode i) = i :=
  open Laws in
  @Instr.rec Rebuild.Statement
    Rebuild.add Rebuild.sub Rebuild.mul Rebuild.div Rebuild.rem Rebuild.shl Rebuild.shr Rebuild.and Rebuild.or
    Rebuild.not Rebuild.xor Rebuild.addi Rebuild.subi Rebuild.muli Rebuild.divi Rebuild.remi Rebuild.shli Rebuild.shri
    Rebuild.move Rebuild.swap Rebuild.set Rebuild.ld Rebuild.ldi Rebuild.ldc Rebuild.st Rebuild.stc Rebuild.memset
    Rebuild.push Rebuild.pushi Rebuild.pop
    Rebuild.j Rebuild.jl Rebuild.jr Rebuild.jrl Rebuild.jt Rebuild.jtl Rebuild.jrt Rebuild.jrtl Rebuild.jf Rebuild.jfl
    Rebuild.jrf Rebuild.jrfl Rebuild.ift Rebuild.iff Rebuild.iftl Rebuild.iffl
    Rebuild.eq Rebuild.ne Rebuild.lt Rebuild.gt Rebuild.le Rebuild.ge Rebuild.eqi Rebuild.nei Rebuild.lti Rebuild.gti
    Rebuild.lei Rebuild.gei
    Rebuild.system Rebuild.implicitSet Rebuild.implicitIndirectSet Rebuild.implicitGet Rebuild.implicitIndirectGet i

theorem decode_encode (i : Instr) : decode (encode i) = .instr i := by
  rw [decode_of_byte0 (byte0_encode i), buildInstr_encode]

/-- Settles O1. Byte 0 of the encoded word selects the operation, and the operands taken from the word are those of the
instruction. -/
theorem decodeOfEncode : Obligations.DecodeOfEncode := decode_encode

theorem encode_injective {i i' : Instr} (h : encode i = encode i') : i = i' := by
  have := decode_encode i
  rw [h, decode_encode] at this
  exact (Decoded.instr.inj this).symm

theorem encode_of_decode {w : CodeWord} {i : Instr} (h : decode w = .instr i) : encode i = w &&& i.op.usedMask := by
  obtain ⟨hbyte, hi⟩ := byte0_buildInstr_of_decode h
  have hfields : i.fields = (b1 w &&& b1 i.op.usedMask, b2 w &&& b2 i.op.usedMask, b3 w &&& b3 i.op.usedMask) := by
    conv_lhs => rw [hi, fields_buildInstr]
  apply codeWord_ext
  · rw [byte0_encode, byte0_and, byte0_usedMask, BitVec.and_allOnes, hbyte]
  · rw [b1_encode, b1_and, hfields]
  · rw [b2_encode, b2_and, hfields]
  · rw [b3_encode, b3_and, hfields]

/-- Settles O2. The word and the encoding agree byte by byte: in byte 0, which every operation uses, and in each field
by what the used mask keeps of it. -/
theorem encodeOfDecode : Obligations.EncodeOfDecode := fun _ _ => encode_of_decode

/-- An encoded word keeps to the used mask. -/
theorem encode_and_usedMask (i : Instr) : encode i &&& i.op.usedMask = encode i :=
  (encode_of_decode (decode_encode i)).symm

/-- Words that agree on the used bits of an instruction decode to it alike. -/
theorem decode_congr_usedMask {w w' : CodeWord} {i : Instr} (h : decode w = .instr i)
    (hw : w &&& i.op.usedMask = w' &&& i.op.usedMask) : decode w' = .instr i := by
  have hbyte : byte0 w' = i.op.byte0 := by
    have := congrArg byte0 hw
    rwa [byte0_and, byte0_and, byte0_usedMask, BitVec.and_allOnes, BitVec.and_allOnes,
      (byte0_buildInstr_of_decode h).1, eq_comm] at this
  have hdecode := decode_of_byte0 hbyte
  have hencode : encode (buildInstr i.op w') = encode i := by
    rw [encode_of_decode hdecode, op_buildInstr, ← hw, encode_of_decode h]
  rw [hdecode, encode_injective hencode]

/-- Settles O4. Words that agree on the used bits have the same byte 0 and encode back alike; an encoded word keeps to
the used mask, so nothing of it is left outside. -/
theorem unusedFieldsAreIgnored : Obligations.UnusedFieldsAreIgnored := by
  refine ⟨fun w w' i => decode_congr_usedMask, fun i => ?_, rfl⟩
  rw [← encode_and_usedMask i, BitVec.and_assoc, BitVec.and_not_self]
  exact BitVec.and_zero

/-- Settles O9. The four bytes of a word packed again are the word. -/
theorem imageBytesDecode : Obligations.ImageBytesDecode := by
  intro i rest
  constructor
  · show some (decode (packWord _ _ _ _), rest) = _
    rw [packWord_bytes, decode_encode]
  · simp only [encodeBytes, List.map_cons, List.map_nil, byte0_toNat, b1_toNat, b2_toNat, b3_toNat]

/-- Settles O5. The map is a closed list, and the 256 values of byte 0 are counted out. -/
theorem opcodeMapAsPrinted : Obligations.OpcodeMapAsPrinted := ⟨rfl, by decide⟩

/-- Settles O6. Nine closed words. -/
theorem wordsWrittenOutDecode : Obligations.WordsWrittenOutDecode := by
  unfold Obligations.WordsWrittenOutDecode
  decide

end Sys2Proof
end

section
/-!
PROOFS, the encoding family: the assembler. It puts operands in slots; the operands of a built instruction are the
slots of its operation read from the word, so operands that fit are those of some instruction, and the word made of them
is the encoder's.
-/

namespace Sys2Proof.Machine

/-! ### An instruction as it is written -/

/-- Every instruction's operands fit its slots: the family `Accepted` over all constructors. -/
theorem allFit_operands (i : Instr) : AsmOperand.allFit i.op.slots i.operands = true :=
  open Laws in
  @Instr.rec Accepted.Statement
    Accepted.add Accepted.sub Accepted.mul Accepted.div Accepted.rem Accepted.shl Accepted.shr Accepted.and Accepted.or
    Accepted.not Accepted.xor Accepted.addi Accepted.subi Accepted.muli Accepted.divi Accepted.remi Accepted.shli
    Accepted.shri
    Accepted.move Accepted.swap Accepted.set Accepted.ld Accepted.ldi Accepted.ldc Accepted.st Accepted.stc
    Accepted.memset Accepted.push Accepted.pushi Accepted.pop
    Accepted.j Accepted.jl Accepted.jr Accepted.jrl Accepted.jt Accepted.jtl Accepted.jrt Accepted.jrtl Accepted.jf
    Accepted.jfl Accepted.jrf Accepted.jrfl Accepted.ift Accepted.iff Accepted.iftl Accepted.iffl
    Accepted.eq Accepted.ne Accepted.lt Accepted.gt Accepted.le Accepted.ge Accepted.eqi Accepted.nei Accepted.lti
    Accepted.gti Accepted.lei Accepted.gei
    Accepted.system Accepted.implicitSet Accepted.implicitIndirectSet Accepted.implicitGet
    Accepted.implicitIndirectGet i

/-- An operation's mnemonic and operands that fit its slots make a well-formed line. -/
theorem wellFormed_of_ofMnemonic {l : AsmLine} {o : Op} (h : Op.ofMnemonic l.mnemonic = some o) :
    l.wellFormed = AsmOperand.allFit o.slots l.operands := by
  rw [AsmLine.wellFormed, h]

theorem wellFormed_instr (i : Instr) : i.wellFormed = true :=
  (wellFormed_of_ofMnemonic (ofMnemonic_mnemonic i.op)).trans (allFit_operands i)

/-- A well-formed line names an operation whose slots its operands fit. -/
theorem wellFormed_iff {l : AsmLine} :
    l.wellFormed = true ↔ ∃ o, Op.ofMnemonic l.mnemonic = some o ∧ AsmOperand.allFit o.slots l.operands = true := by
  cases h : Op.ofMnemonic l.mnemonic with
  | none => simp [AsmLine.wellFormed, h]
  | some o => simp [wellFormed_of_ofMnemonic h]

/-! ### Operands put in their slots -/

/-- The 16-bit immediate is its two bytes in `b2` and `b3` (R81). -/
theorem imm16_mul_weight (v : Word) :
    v.toNat * 2 ^ 16 = (v.extractLsb' 0 8).toNat * 2 ^ 16 + (v.extractLsb' 8 8).toNat * 2 ^ 24 := by
  have := v.isLt
  simp [BitVec.extractLsb'_toNat, Nat.shiftRight_eq_div_pow]
  omega

/-- The slots of an operation and the fields of the encoder put the operands in the same bits: each weighs the same in
both, a 16-bit immediate as its two bytes. -/
theorem placeOperands_operands (i : Instr) :
    placeOperands i.op.slots i.operands =
      i.fields.1.toNat * 2 ^ 8 + i.fields.2.1.toNat * 2 ^ 16 + i.fields.2.2.toNat * 2 ^ 24 := by
  cases i <;>
    simp [Instr.op, Op.slots, Op.format, Format.slots, Instr.operands, Instr.fields, placeOperands, operandValue,
      slotWeight, imm16_mul_weight, Nat.add_assoc, -Nat.reducePow]

/-- A line that names the operation of an instruction and has its operands is assembled to the encoder's word. -/
theorem assemble_eq_encode {l : AsmLine} {i : Instr} (hm : Op.ofMnemonic l.mnemonic = some i.op)
    (ho : l.operands = i.operands) : assemble l = some (encode i) := by
  have hwf : l.wellFormed = true := by rw [wellFormed_of_ofMnemonic hm, ho, allFit_operands]
  rw [assemble, if_pos hwf, hm, Option.map_some, ho, placeOperands_operands, encode, packWord, ← Nat.add_assoc,
    ← Nat.add_assoc]

/-- Settles O7. The operands of every instruction fit its slots, and the slots put them where the encoder's fields put
them. -/
theorem assemblerAgreesWithEncoder : Obligations.AssemblerAgreesWithEncoder :=
  fun i => ⟨wellFormed_instr i, assemble_eq_encode (ofMnemonic_mnemonic i.op) rfl⟩

/-! ### Operands that fit are those of an instruction -/

/-- The operand that a slot holds in a word. -/
def slotOperand (w : CodeWord) : Slot → AsmOperand
  | .reg1 => .reg (b1 w).toNat
  | .reg2 => .reg (b2 w).toNat
  | .reg3 => .reg (b3 w).toNat
  | .imm1 => .imm (b1 w).toNat
  | .imm2 => .imm (b2 w).toNat
  | .imm3 => .imm (b3 w).toNat
  | .imm16 => .imm (imm16 w).toNat

/-- The operands of an instruction built from a word are what its operation's slots hold there. -/
theorem operands_buildInstr (o : Op) (w : CodeWord) : (buildInstr o w).operands = o.slots.map (slotOperand w) := by
  cases o <;> rfl

/-- The slots of an operation are those of some format: `not` has those of RR (R133), every other those of its own. -/
theorem exists_format_slots (o : Op) : ∃ f : Format, o.slots = f.slots := by
  cases ho : o with
  | not => exact ⟨.RR, rfl⟩
  | _ => exact ⟨o.format, by rw [ho]; rfl⟩

/-- An immediate in the range of a width is the number of a value of that width. -/
theorem exists_imm_of_range {k : Nat} {n : Int} (h0 : 0 ≤ n) (hn : n < 2 ^ k) :
    ∃ v : BitVec k, AsmOperand.imm v.toNat = .imm n := by
  refine ⟨BitVec.ofInt k n, congrArg AsmOperand.imm ?_⟩
  rw [BitVec.toNat_ofInt, Int.toNat_of_nonneg (Int.emod_nonneg _ (by positivity)),
    Int.emod_eq_of_lt h0 (by exact_mod_cast hn)]

/-- An operand that fits a slot is what the slot holds in some word (R83, R84, R87). -/
theorem exists_slotOperand_of_fits {sl : Slot} {o : AsmOperand} (h : o.fits sl = true) :
    ∃ w, slotOperand w sl = o := by
  cases o with
  | reg n =>
    cases sl with
    | imm1 | imm2 | imm3 | imm16 => cases h
    | reg1 | reg2 | reg3 =>
      have hn : n < 256 := of_decide_eq_true h
      have hr : (BitVec.ofNat 8 n).toNat = n := by rw [BitVec.toNat_ofNat, Nat.mod_eq_of_lt hn]
      exact ⟨packWord 0 (BitVec.ofNat 8 n) (BitVec.ofNat 8 n) (BitVec.ofNat 8 n), by simp [slotOperand, hr]⟩
  | imm n =>
    cases sl with
    | reg1 | reg2 | reg3 => cases h
    | imm1 | imm2 | imm3 =>
      have hn : 0 ≤ n ∧ n < 256 := by simpa [AsmOperand.fits] using h
      obtain ⟨v, hv⟩ := exists_imm_of_range (k := 8) hn.1 hn.2
      exact ⟨packWord 0 v v v, by simpa [slotOperand] using hv⟩
    | imm16 =>
      have hn : 0 ≤ n ∧ n < 65536 := by simpa [AsmOperand.fits] using h
      obtain ⟨v, hv⟩ := exists_imm_of_range (k := 16) hn.1 hn.2
      exact ⟨packWord 0 0 (v.extractLsb' 0 8) (v.extractLsb' 8 8), by simpa [slotOperand] using hv⟩

/-- Operands that fit their slots do so one by one. -/
theorem forall₂_fits_of_allFit {sls : List Slot} {os : List AsmOperand} (h : AsmOperand.allFit sls os = true) :
    List.Forall₂ (fun sl o => o.fits sl = true) sls os := by
  induction sls generalizing os with
  | nil => cases os with
    | nil => exact .nil
    | cons o os => cases h
  | cons sl sls ih => cases os with
    | nil => cases h
    | cons o os =>
      rw [AsmOperand.allFit, Bool.and_eq_true] at h
      exact .cons h.1 (ih h.2)

/-- The 16-bit immediate of a word is taken from its upper two bytes (R81). -/
theorem imm16_packWord_bytes (c0 c1 : Byte) (w : CodeWord) : imm16 (packWord c0 c1 (b2 w) (b3 w)) = imm16 w := by
  rw [← imm16_lower, ← imm16_upper, imm16_packWord]

/-- Operands that fit the slots of a format are what those slots hold in one word, put together of a word for each. -/
theorem exists_word_of_allFit {f : Format} {os : List AsmOperand} (h : AsmOperand.allFit f.slots os = true) :
    ∃ w, f.slots.map (slotOperand w) = os := by
  have hs := forall₂_fits_of_allFit h
  cases f with
  | RRR | RRI8 | I8RR =>
    obtain _ | ⟨h1, _ | ⟨h2, _ | ⟨h3, _ | _⟩⟩⟩ := hs
    obtain ⟨w1, rfl⟩ := exists_slotOperand_of_fits h1
    obtain ⟨w2, rfl⟩ := exists_slotOperand_of_fits h2
    obtain ⟨w3, rfl⟩ := exists_slotOperand_of_fits h3
    exact ⟨packWord 0 (b1 w1) (b2 w2) (b3 w3), by simp [Format.slots, slotOperand]⟩
  | RR | I8R | RI8 | RI16 =>
    obtain _ | ⟨h1, _ | ⟨h2, _ | _⟩⟩ := hs
    obtain ⟨w1, rfl⟩ := exists_slotOperand_of_fits h1
    obtain ⟨w2, rfl⟩ := exists_slotOperand_of_fits h2
    exact ⟨packWord 0 (b1 w1) (b2 w2) (b3 w2), by simp [Format.slots, slotOperand, imm16_packWord_bytes]⟩
  | R | I16 =>
    obtain _ | ⟨h1, _ | _⟩ := hs
    obtain ⟨w1, rfl⟩ := exists_slotOperand_of_fits h1
    exact ⟨w1, rfl⟩

/-- Operands that fit the slots of an operation are those of an instruction of it. -/
theorem exists_instr_of_allFit {o : Op} {os : List AsmOperand} (h : AsmOperand.allFit o.slots os = true) :
    ∃ i : Instr, i.op = o ∧ i.operands = os := by
  obtain ⟨f, hf⟩ := exists_format_slots o
  obtain ⟨w, hw⟩ := exists_word_of_allFit (hf ▸ h)
  exact ⟨buildInstr o w, op_buildInstr o w, by rw [operands_buildInstr, hf, hw]⟩

/-- A well-formed line writes an instruction, and its word is that instruction's. -/
theorem exists_instr_of_wellFormed {l : AsmLine} (h : l.wellFormed = true) :
    ∃ i : Instr, assemble l = some (encode i) ∧ Op.ofMnemonic l.mnemonic = some i.op ∧ i.operands = l.operands := by
  obtain ⟨o, hm, hfit⟩ := wellFormed_iff.mp h
  obtain ⟨i, rfl, ho⟩ := exists_instr_of_allFit hfit
  exact ⟨i, assemble_eq_encode hm ho.symm, hm, ho⟩

theorem assemble_of_not_wellFormed {l : AsmLine} (h : l.wellFormed = false) : assemble l = none := by
  simp [assemble, h]

/-- Settles O8. A well-formed line writes some instruction, whose word the assembler makes and which that word decodes
to; no other line has a word. -/
theorem assembledLinesDecodeAsWritten : Obligations.AssembledLinesDecodeAsWritten := by
  refine ⟨fun l => ?accepts, fun l w hw => ?decodes, rfl, rfl, by decide⟩
  case accepts =>
    cases h : l.wellFormed with
    | false => rw [assemble_of_not_wellFormed h, Option.isSome_none]
    | true =>
      obtain ⟨i, hi, -⟩ := exists_instr_of_wellFormed h
      rw [hi, Option.isSome_some]
  case decodes =>
    cases h : l.wellFormed with
    | false => rw [assemble_of_not_wellFormed h] at hw; cases hw
    | true =>
      obtain ⟨i, hi, hm, ho⟩ := exists_instr_of_wellFormed h
      obtain rfl := Option.some.inj (hi.symm.trans hw)
      exact ⟨i, decode_encode i, hm, ho⟩

end Sys2Proof.Machine
end

section
/-!
PROOFS, the state and its memories: read after write, canonical memories as data, loading, and the state after reset.
-/

namespace Sys2Proof.Machine

/-- Settles O42. The read-after-write laws of the two register files. -/
theorem everyRegisterReadsBack : Obligations.EveryRegisterReadsBack := by
  constructor
  · exact fun s i j v => ⟨by simp, fun hj => by simp [hj]⟩
  · exact fun s k j v => ⟨by simp, fun hj => by simp [hj]⟩

/-- Settles O43. The read-after-write laws of the three domains, each of which is a field of its own. -/
theorem memoryReadsBack : Obligations.MemoryReadsBack := by
  intro s a b c v
  exact ⟨by simp, by simp, by simp, fun hb => by simp [hb], rfl, rfl, rfl, rfl, rfl, rfl⟩

/-! ### Canonical memories as data -/

/-- The first entry of a canonical memory and what follows it. -/
theorem Mem.wfFrom_cons {w lo a : Nat} {v : BitVec w} {m : Mem w} (h : Mem.wfFrom lo ((a, v) :: m) = true) :
    a < 65536 ∧ v ≠ Mem.unlisted ∧ Mem.wfFrom (a + 1) m = true := by
  simp only [Mem.wfFrom, Bool.and_eq_true, decide_eq_true_eq] at h
  obtain ⟨⟨⟨-, ha⟩, hv⟩, hm⟩ := h
  exact ⟨ha, hv, hm⟩

@[simp] theorem Mem.read_cons_self {w : Nat} (a : Nat) (v : BitVec w) (m : Mem w) : Mem.read ((a, v) :: m) a = v :=
  if_pos rfl

theorem Mem.read_cons_of_ne {w a b : Nat} (h : b ≠ a) (v : BitVec w) (m : Mem w) :
    Mem.read ((a, v) :: m) b = Mem.read m b := if_neg h

/-- Below its first entry a canonical memory reads as unlisted. -/
theorem Mem.read_cons_below {w lo a b : Nat} {v : BitVec w} {m : Mem w} (h : Mem.wfFrom lo ((a, v) :: m) = true)
    (hb : b < a) : Mem.read ((a, v) :: m) b = Mem.unlisted := by
  rw [Mem.read_cons_of_ne (Nat.ne_of_lt hb)]
  exact Mem.read_below (Mem.wfFrom_cons h).2.2 (by omega)

/-- Canonical memories that read alike do not differ in their first address. -/
theorem Mem.head_le_of_read_eq {w lo lo' a b : Nat} {v u : BitVec w} {m m' : Mem w}
    (hm : Mem.wfFrom lo ((a, v) :: m) = true) (hm' : Mem.wfFrom lo' ((b, u) :: m') = true)
    (h : ∀ x < 65536, Mem.read ((a, v) :: m) x = Mem.read ((b, u) :: m') x) : b ≤ a := by
  obtain ⟨ha, hv, -⟩ := Mem.wfFrom_cons hm
  by_contra hlt
  exact hv (by rw [← Mem.read_cons_below hm' (Nat.lt_of_not_le hlt), ← h a ha, Mem.read_cons_self])

/-- Canonical memories that read alike are the same list: they begin with the same entry, whose address neither lists
again. -/
theorem Mem.eq_of_read_eq {w lo lo' : Nat} {m m' : Mem w} (hm : Mem.wfFrom lo m = true)
    (hm' : Mem.wfFrom lo' m' = true) (h : ∀ x < 65536, Mem.read m x = Mem.read m' x) : m = m' := by
  induction m generalizing lo lo' m' with
  | nil =>
    cases m' with
    | nil => rfl
    | cons c m' =>
      obtain ⟨hb, hu, -⟩ := Mem.wfFrom_cons hm'
      exact absurd ((Mem.read_cons_self ..).symm.trans (h _ hb).symm) hu
  | cons c m ih =>
    obtain ⟨a, v⟩ := c
    obtain ⟨ha, hv, hrest⟩ := Mem.wfFrom_cons hm
    cases m' with
    | nil => exact absurd ((Mem.read_cons_self ..).symm.trans (h a ha)) hv
    | cons c' m' =>
      obtain ⟨b, u⟩ := c'
      obtain ⟨-, -, hrest'⟩ := Mem.wfFrom_cons hm'
      obtain rfl : a = b :=
        Nat.le_antisymm (Mem.head_le_of_read_eq hm' hm fun x hx => (h x hx).symm) (Mem.head_le_of_read_eq hm hm' h)
      have hvu : v = u := by simpa using h a ha
      have hread : ∀ x < 65536, Mem.read m x = Mem.read m' x := by
        intro x hx
        by_cases hxa : x = a
        · subst hxa
          rw [Mem.read_below hrest (Nat.lt_succ_self x), Mem.read_below hrest' (Nat.lt_succ_self x)]
        · simpa only [Mem.read_cons_of_ne hxa] using h x hx
      rw [hvu, ih hrest hrest' hread]

/-- Settles O44, by induction on the entries. -/
theorem canonicalMemoriesAreEqual : Obligations.CanonicalMemoriesAreEqual :=
  fun _ _ _ => Mem.eq_of_read_eq

/-! ### Loading -/

theorem word_add_ofNat_succ (a : Word) (k : Nat) :
    a + BitVec.ofNat 16 (k + 1) = a + 1 + BitVec.ofNat 16 k := by bv_omega

/-- A load leaves the addresses it does not reach. -/
theorem readCode_loadCode_outside (s : State) (a b : Word) (ws : List CodeWord)
    (h : ∀ k < ws.length, b ≠ a + BitVec.ofNat 16 k) : (s.loadCode a ws).readCode b = s.readCode b := by
  induction ws generalizing s a with
  | nil => rfl
  | cons w ws ih =>
    have ha : b ≠ a := by simpa using h 0 (Nat.succ_pos _)
    rw [State.loadCode, ih, State.readCode_writeCode, if_neg ha]
    intro k hk
    rw [← word_add_ofNat_succ]
    exact h (k + 1) (Nat.succ_lt_succ hk)

/-- A load of no more words than a domain has addresses is read back word for word. -/
theorem readCode_loadCode (s : State) (a : Word) (ws : List CodeWord) (k : Nat) (h : k < ws.length)
    (hlen : ws.length ≤ 65536) : (s.loadCode a ws).readCode (a + BitVec.ofNat 16 k) = ws[k] := by
  induction ws generalizing s a k with
  | nil => cases h
  | cons w ws ih =>
    rw [List.length_cons] at hlen
    cases k with
    | zero =>
      have hout : ∀ k < ws.length, a + BitVec.ofNat 16 0 ≠ a + 1 + BitVec.ofNat 16 k := by
        intro k hk
        bv_omega
      rw [State.loadCode, readCode_loadCode_outside _ _ _ _ hout]
      simp
    | succ k =>
      rw [word_add_ofNat_succ]
      exact ih _ _ k (Nat.lt_of_succ_lt_succ h) (by omega)

/-- The words of an image of instructions are their encodings (R57). -/
theorem imageWords_encodeBytes (p : List Instr) : imageWords (p.flatMap encodeBytes) = p.map encode := by
  induction p with
  | nil => rfl
  | cons i p ih =>
    show packWord (byte0 (encode i)) (b1 (encode i)) (b2 (encode i)) (b3 (encode i)) ::
      imageWords (p.flatMap encodeBytes) = _
    rw [packWord_bytes, ih, List.map_cons]

/-- Settles O46, by induction on the words: each is written once, and none of the later ones reaches its address. -/
theorem loadedProgramIsInCode : Obligations.LoadedProgramIsInCode := by
  refine ⟨readCode_loadCode, fun s p k h hlen => ?_⟩
  rw [State.loadImage, imageWords_encodeBytes, config_resetPc]
  have := readCode_loadCode s 0 (p.map encode) k (by simpa using h) (by simpa using hlen)
  rw [List.getElem_map] at this
  simpa using this

/-! ### Reset -/

/-- The implicit registers after a launch: the launch's own, then the two targets written (R29, R281). -/
theorem readImpl_launch (l : Launch) (k : ImplNum) :
    (State.launch l).readImpl k = if k = 1 then 254 else if k = 0 then 255 else l.impl[k.toNat]'(implNum_lt k) := by
  simp [State.launch, State.readImpl, Vector.getElem_set, ← BitVec.toNat_inj, eq_comm]

/-- Settles O45. A launch fills in the state field by field; only the two used implicit registers are overwritten. -/
theorem stateAfterReset : Obligations.StateAfterReset := by
  refine ⟨fun l => ⟨rfl, rfl, rfl, ?stackPointer, ?predicate, ?otherImpl, fun _ => rfl, rfl, rfl, rfl, rfl⟩,
    ⟨Launch.nothing, rfl⟩, rfl⟩
  case stackPointer => simp [readImpl_launch]
  case predicate => simp [readImpl_launch]
  case otherImpl => exact fun k h0 h1 => by rw [readImpl_launch, if_neg h1, if_neg h0]

end Sys2Proof.Machine
end

section
/-!
PROOFS, one instruction at a time: division, shifts, moves, loads, stores, the stack, comparisons and the implicit gets.
Most are write-backs, so what is left of a claim is the number written; the others are a few updates of the state, whose
frame is put together from the frames of the updates.
-/

namespace Sys2Proof.Machine

/-! ### Write-backs -/

theorem writesReg_of_divideBack {i : Instr} {s : State} {d : RegNum} {b v : Word} {n : Nat} (hb : b ≠ 0)
    (h : exec i s = divideBack d b v s) (hn : v.toNat = n) : WritesReg i s d n :=
  writesReg_of_writeBack (h.trans (divideBack_nonzero hb)) hn

/-- Settles O15. A divisor that is not zero leaves the write-back of the unsigned quotient or remainder. -/
theorem divideByNonzero : Obligations.DivideByNonzero := by
  intro s d a
  constructor
  · intro b hb
    exact ⟨writesReg_of_divideBack hb rfl (quotient_toNat ..), writesReg_of_divideBack hb rfl (remainder_toNat ..)⟩
  · intro n hn
    have hz : zext16 n ≠ 0 := (zext16_eq_zero n).not.mpr hn
    rw [← zext16_toNat n]
    exact ⟨writesReg_of_divideBack hz rfl (quotient_toNat ..), writesReg_of_divideBack hz rfl (remainder_toNat ..)⟩

/-- Settles O16. A zero divisor leaves the panic alone. -/
theorem divideByZeroPanics : Obligations.DivideByZeroPanics := by
  intro s d a
  refine ⟨fun b hb => ⟨?div, ?rem⟩, ?divi, ?remi⟩
  case div => exact divideBack_zero (d := d) (v := quotient _ _) hb
  case rem => exact divideBack_zero (d := d) (v := remainder _ _) hb
  case divi => exact divideBack_zero (d := d) (v := quotient (s.readReg a) 0) rfl
  case remi => exact divideBack_zero (d := d) (v := remainder (s.readReg a) 0) rfl

/-- Settles O17. One formula for every count (R142), the count being the whole second operand. -/
theorem shiftsByAnyCount : Obligations.ShiftsByAnyCount := by
  intro s d a
  constructor
  · intro b
    exact ⟨writesReg_of_writeBack rfl (shiftLeft_toNat ..), writesReg_of_writeBack rfl (shiftRight_toNat ..)⟩
  · intro n
    rw [← zext16_toNat n]
    exact ⟨writesReg_of_writeBack rfl (shiftLeft_toNat ..), writesReg_of_writeBack rfl (shiftRight_toNat ..)⟩

/-- Settles O19. Both loads write back a data word. -/
theorem loadsFromData : Obligations.LoadsFromData :=
  fun _ _ => ⟨fun _ => writesReg_of_writeBack rfl rfl, fun _ => writesReg_of_writeBack rfl rfl⟩

/-- A write-back of a truth value writes 1 where the relation holds, else 0 (R211). -/
theorem writesReg_of_truthValue {i : Instr} {s : State} {d : RegNum} {b : Bool} {p : Prop} [Decidable p]
    (h : exec i s = writeBack d (truthValue b) s) (hp : b = true ↔ p) : WritesReg i s d (if p then 1 else 0) :=
  writesReg_of_writeBack h (by simp only [truthValue_toNat, hp])

/-- Settles O31. Six truth values; words are equal when their numbers are, and the order is that of the numbers. -/
theorem compareRegisters : Obligations.CompareRegisters := by
  intro s d a b
  refine ⟨?eq, ?ne, ?lt, ?gt, ?le, ?ge⟩
  case eq => exact writesReg_of_truthValue rfl (by simp [BitVec.toNat_inj])
  case ne => exact writesReg_of_truthValue rfl (by simp [BitVec.toNat_inj])
  all_goals exact writesReg_of_truthValue rfl (by simp)

/-- Settles O32. As the register forms, against the zero-extended immediate. -/
theorem compareImmediates : Obligations.CompareImmediates := by
  intro s d a n
  rw [← zext16_toNat n]
  refine ⟨?eqi, ?nei, ?lti, ?gti, ?lei, ?gei⟩
  case eqi => exact writesReg_of_truthValue rfl (by rw [decide_eq_true_iff, BitVec.toNat_inj])
  case nei => exact writesReg_of_truthValue rfl (by rw [decide_eq_true_iff, ne_eq, ne_eq, BitVec.toNat_inj])
  all_goals exact writesReg_of_truthValue rfl (by simp)

/-- Settles O40. Both gets write back a zero-extended implicit register; the indirect one finds it by the low byte of
the index register. -/
theorem implicitGets : Obligations.ImplicitGets := by
  intro s d k
  refine ⟨writesReg_of_writeBack rfl (zext16_toNat _), fun ri hk => ?_⟩
  obtain rfl := lowByte_eq_of_toNat hk
  exact writesReg_of_writeBack rfl (zext16_toNat _)

/-! ### Two registers written -/

/-- Two registers written, then the next instruction: nothing else changes. -/
theorem changesOnly_writeReg_writeReg_advance (s : State) (d r : RegNum) (v u : Word) :
    ChangesOnly { regs := [d, r] } s ((s.writeReg d v).writeReg r u).advance :=
  changesOnly_advance (changesOnly_writeReg (changesOnly_writeReg (changesOnly_rfl _ s) d v (by simp)) r u (by simp))

/-- Settles O18. `move` and `set` are write-backs; `swap` writes the two contents read before, and where both registers
are one, they are the same content. -/
theorem registerMoves : Obligations.RegisterMoves := by
  intro s d
  refine ⟨fun r => writesReg_of_writeBack rfl rfl, fun v => writesReg_of_writeBack rfl rfl, fun r => ?_⟩
  refine ⟨_, rfl, ?dest, ?source, advanced_of_pc rfl, changesOnly_writeReg_writeReg_advance ..⟩
  case dest =>
    by_cases h : d = r
    · simp [h]
    · simp [h]
  case source => simp

/-- Settles O20. The two halves of the code word are written in the order of R156, so the upper one stays where both
destinations are one. -/
theorem loadFromCode : Obligations.LoadFromCode := by
  intro s a lo hi
  refine ⟨_, rfl, ?upper, ?lower, advanced_of_pc rfl, changesOnly_writeReg_writeReg_advance ..⟩
  case upper => simp
  case lower => exact fun h => by simp [h]

/-! ### The step of a fetched instruction -/

/-- A running machine that fetches an instruction performs it. -/
theorem step_of_instr {s : State} {i : Instr} (hs : s.status = .running) (hd : decode s.fetch = .instr i) :
    step s = exec i s := by
  rw [step_of_running hs, hd]

/-- Settles O47. The fetch is the code word at `pc`. -/
theorem stepRunsTheDecodedInstruction : Obligations.StepRunsTheDecodedInstruction := fun _ _ => step_of_instr

/-! ### Stores -/

/-- An instruction that stores one data word and goes on does only that. -/
theorem completes_of_writeData {i : Instr} {s : State} {a v : Word} (h : exec i s = .next (s.writeData a v).advance) :
    Completes i s fun t => t.readData a = v ∧ Advanced s t ∧ ChangesOnly { data := [a] } s t :=
  ⟨_, h, by simp, advanced_of_pc rfl, changesOnly_advance (changesOnly_writeData (changesOnly_rfl _ s) a v (by simp))⟩

/-- Settles O21. `st` and `memset` store one data word at the same address. -/
theorem storesToData : Obligations.StoresToData :=
  fun _ _ => ⟨fun _ => completes_of_writeData rfl, fun _ => completes_of_writeData rfl⟩

/-- Settles O22. The one word stored is the two halves joined. -/
theorem storeToCode : Obligations.StoreToCode := by
  intro s a lo hi
  refine ⟨_, rfl, ?stored, advanced_of_pc rfl, ?frame⟩
  case stored => simp
  case frame => exact changesOnly_advance (changesOnly_writeCode (changesOnly_rfl _ s) _ _ (by simp))

/-- Settles O23. The address stored to is the program counter of the next fetch. -/
theorem storedCodeIsFetchedNext : Obligations.StoredCodeIsFetchedNext := by
  intro s a lo hi hs hd ha
  have haddr : s.readReg a = s.nextPc := BitVec.eq_of_toNat_eq (by simpa [State.nextPc_eq] using ha)
  refine ⟨_, step_of_instr hs hd, hs, ?fetched⟩
  case fetched => simp [State.fetch, haddr]

/-! ### The stack -/

/-- An instruction that pushes a word stores it above the stack pointer and raises the pointer. -/
theorem completes_of_pushWord {i : Instr} {s : State} {v : Word} (h : exec i s = pushWord v s) :
    Completes i s fun t =>
      t.readStack (s.readReg s.spIdx + 1) = v ∧
      (t.readReg s.spIdx).toNat = ((s.readReg s.spIdx).toNat + 1) % 65536 ∧ Advanced s t ∧
      ChangesOnly { regs := [s.spIdx], stack := [s.readReg s.spIdx + 1] } s t := by
  refine ⟨_, h, ?stored, ?pointer, advanced_of_pc rfl, ?frame⟩
  case stored => simp
  case pointer => simp
  case frame =>
    exact changesOnly_advance (changesOnly_writeReg
      (changesOnly_writeStack (changesOnly_rfl _ s) _ _ (List.mem_singleton_self _)) _ _ (List.mem_singleton_self _))

/-- Settles O24. Both push one word; that of `push` is read before the pointer is raised. -/
theorem pushes : Obligations.Pushes :=
  fun _ => ⟨fun _ => completes_of_pushWord rfl, fun _ => completes_of_pushWord rfl⟩

/-- Settles O25. The pointer is written last, so it holds the lowered pointer whatever the destination. -/
theorem popsLoadThenDecrement : Obligations.PopsLoadThenDecrement := by
  intro s d
  rw [← State.spIdx_eq]
  refine ⟨_, rfl, ?loaded, ?pointer, advanced_of_pc rfl, changesOnly_writeReg_writeReg_advance ..⟩
  case loaded => exact fun h => by simp [h]
  case pointer =>
    simp
    omega

/-- Settles O26. The pop reads the address the push stored to, and one added and subtracted is the old pointer. -/
theorem popUndoesPush : Obligations.PopUndoesPush := by
  intro s r d hd
  rw [← State.spIdx_eq] at hd
  refine ⟨_, _, rfl, rfl, ?value, ?others⟩
  case value => simp [hd]
  case others =>
    intro q hq
    by_cases hsp : q = s.spIdx
    · simp [hsp]
    · simp [hq, hsp]

/-- The stack pointer is what was last written to implicit register 1 (R163). -/
@[simp] theorem State.spIdx_writeImpl_one (s : State) (v : Byte) : (s.writeImpl 1 v).spIdx = v := by
  simp [State.spIdx_eq]

/-- Settles O41. The push finds its pointer through implicit register 1, which now holds the new number, and changes no
register but that one. -/
theorem stackPointerMoves : Obligations.StackPointerMoves := by
  intro s r q n hn hne
  obtain rfl := lowByte_eq_of_toNat hn
  have hset : exec (.implicitSet 1 r) s = .next (s.writeImpl 1 (lowByte (s.readReg r))).advance := rfl
  obtain ⟨u, hu, hstored, hpointer, -, hframe⟩ := completes_of_pushWord (i := .push q)
    (s := (s.writeImpl 1 (lowByte (s.readReg r))).advance) rfl
  rw [State.spIdx_advance, State.spIdx_writeImpl_one] at hstored hpointer hframe
  exact ⟨_, u, hset, hu, hstored, hpointer, hframe.regs _ (by simpa using hne.symm)⟩

end Sys2Proof.Machine
end

section
/-!
PROOFS, the jump and system families. Every jump is a write of `pc`, the linking ones after a write of the link
register; every system call is one of the answers of R231 to R235.
-/

namespace Sys2Proof.Machine

/-! ### A jump as a write of pc -/

theorem completes_of_jumpTo {i : Instr} {s : State} {n : Word} (h : exec i s = .next (s.jumpTo n)) :
    Completes i s fun t => t.pc = n ∧ ChangesOnly {} s t :=
  ⟨_, h, rfl, changesOnly_jumpTo (changesOnly_rfl _ s) n⟩

/-- A linking jump writes the next address to its link register and its target, read before, to `pc` (R182). -/
theorem completes_of_link_jumpTo {i : Instr} {s : State} {c : Bool} {l : RegNum} {n : Word}
    (h : exec i s = .next ((s.writeLink c l).jumpTo n)) :
    Completes i s fun t =>
      t.pc = n ∧ (t.readReg l).toNat = (s.pc.toNat + 1) % 65536 ∧ ChangesOnly { regs := [l] } s t := by
  rw [State.writeLink_eq] at h
  refine ⟨_, h, rfl, ?link, ?frame⟩
  case link => simp [State.link_eq]
  case frame => exact changesOnly_jumpTo (changesOnly_writeReg (changesOnly_rfl _ s) l _ (List.mem_singleton_self l)) n

/-- What a claim about a next state implies can be claimed instead. -/
theorem Completes.imp {i : Instr} {s : State} {P Q : State → Prop} (h : Completes i s P) (hPQ : ∀ t, P t → Q t) :
    Completes i s Q := by
  obtain ⟨t, ht, hP⟩ := h
  exact ⟨t, ht, hPQ t hP⟩

section
variable {i : Instr} {s : State} {c : Bool} {n : Word} {p q : Prop}

/-- A conditional program counter, read from both outcomes of the condition (R181). -/
theorem taken_or_advanced {t : State} (hpc : t.pc = if c then n else s.nextPc) (hp : c = true ↔ p)
    (hq : c = false ↔ q) : (p → t.pc = n) ∧ (q → Advanced s t) := by
  constructor
  · intro h
    simp only [hpc, hp.mpr h, if_true]
  · intro h
    exact advanced_of_pc (by simp [hpc, hq.mpr h, State.nextPc_eq])

/-- A branch to `n` on `p`, with `q` for the other outcome. -/
theorem completes_of_branch (h : exec i s = .next (s.branch c n)) (hp : c = true ↔ p) (hq : c = false ↔ q) :
    Completes i s fun t => (p → t.pc = n) ∧ (q → Advanced s t) ∧ ChangesOnly {} s t := by
  rw [State.branch_eq] at h
  refine (completes_of_jumpTo h).imp fun t ⟨hpc, hframe⟩ => ?_
  obtain ⟨taken, on⟩ := taken_or_advanced hpc hp hq
  exact ⟨taken, on, hframe⟩

/-- A linking branch, which links whether or not it jumps (D18). -/
theorem completes_of_link_branch {l : RegNum} (h : exec i s = .next ((s.writeLink c l).branch c n))
    (hp : c = true ↔ p) (hq : c = false ↔ q) :
    Completes i s fun t => (p → t.pc = n) ∧ (q → Advanced s t) ∧
      (t.readReg l).toNat = (s.pc.toNat + 1) % 65536 ∧ ChangesOnly { regs := [l] } s t := by
  rw [State.branch_eq] at h
  refine (completes_of_link_jumpTo h).imp fun t ⟨hpc, hlink, hframe⟩ => ?_
  rw [State.writeLink_eq, State.nextPc_writeReg] at hpc
  obtain ⟨taken, on⟩ := taken_or_advanced hpc hp hq
  exact ⟨taken, on, hlink, hframe⟩

end

/-! ### The conditions (R30) -/

theorem isTrue_iff (v : Word) : isTrue v = true ↔ v ≠ 0 := decide_eq_true_iff

theorem isTrue_eq_false_iff (v : Word) : isTrue v = false ↔ v = 0 := by
  rw [← Bool.not_eq_true, isTrue_iff, not_not]

theorem not_isTrue_iff (v : Word) : (!isTrue v) = true ↔ v = 0 := by
  rw [Bool.not_eq_true', isTrue_eq_false_iff]

theorem not_isTrue_eq_false_iff (v : Word) : (!isTrue v) = false ↔ v ≠ 0 := by
  rw [Bool.not_eq_false', isTrue_iff]

/-! ### The jumps -/

/-- Settles O27. Each is a write of `pc`, two of them after the link. -/
theorem unconditionalJumps : Obligations.UnconditionalJumps :=
  fun _ => ⟨fun _ => completes_of_jumpTo rfl, fun _ _ => completes_of_link_jumpTo rfl,
    fun _ => completes_of_jumpTo rfl, fun _ _ => completes_of_link_jumpTo rfl⟩

/-- Settles O28. The four are branches on a register that is not zero. -/
theorem jumpsIfTrue : Obligations.JumpsIfTrue := by
  intro s
  refine ⟨fun p n => ?jt, fun l n => ?jtl, fun p a => ?jrt, fun p a l => ?jrtl⟩
  case jt => exact completes_of_branch rfl (isTrue_iff _) (isTrue_eq_false_iff _)
  case jtl => exact completes_of_link_branch rfl (isTrue_iff _) (isTrue_eq_false_iff _)
  case jrt => exact completes_of_branch rfl (isTrue_iff _) (isTrue_eq_false_iff _)
  case jrtl => exact completes_of_link_branch rfl (isTrue_iff _) (isTrue_eq_false_iff _)

/-- Settles O29. The four are branches on a register that is zero. -/
theorem jumpsIfFalse : Obligations.JumpsIfFalse := by
  intro s
  refine ⟨fun p n => ?jf, fun l n => ?jfl, fun p a => ?jrf, fun p a l => ?jrfl⟩
  case jf => exact completes_of_branch rfl (not_isTrue_iff _) (not_isTrue_eq_false_iff _)
  case jfl => exact completes_of_link_branch rfl (not_isTrue_iff _) (not_isTrue_eq_false_iff _)
  case jrf => exact completes_of_branch rfl (not_isTrue_iff _) (not_isTrue_eq_false_iff _)
  case jrfl => exact completes_of_link_branch rfl (not_isTrue_iff _) (not_isTrue_eq_false_iff _)

/-- Settles O30. The target is one of two registers' contents, read before the link is written. -/
theorem ifThenElseJumps : Obligations.IfThenElseJumps := by
  intro s p t f
  simp only [← isTrue_iff, ← not_isTrue_iff]
  exact ⟨completes_of_jumpTo rfl, completes_of_jumpTo rfl, completes_of_link_jumpTo rfl, completes_of_link_jumpTo rfl⟩

/-! ### The system call -/

/-- Settles O33. Halting is one write of the status, and a halted machine makes no step. -/
theorem haltStopsTheMachine : Obligations.HaltStopsTheMachine := fun _ _ _ => ⟨rfl, step_of_halted rfl⟩

theorem exec_getc_of_pending {s : State} {c : Byte} {rest : List Byte} (h : s.stdin.pending = c :: rest)
    (ra rb : RegNum) :
    exec (.system 2 ra rb) s = writeBack ra (zext16 c) (s.setStdin { s.stdin with pending := rest }) := by
  show systemGetc ra s = _
  rw [systemGetc, h]

theorem exec_getc_of_end {s : State} (hp : s.stdin.pending = []) (hc : s.stdin.closed = true) (ra rb : RegNum) :
    exec (.system 2 ra rb) s = writeBack ra (Config.getcEof s.draws) s.countDraw := by
  show systemGetc ra s = _
  rw [systemGetc, hp, hc]
  rfl

theorem exec_getc_of_wait {s : State} (hp : s.stdin.pending = []) (hc : s.stdin.closed = false) (ra rb : RegNum) :
    exec (.system 2 ra rb) s = .fault .awaitingInput := by
  show systemGetc ra s = _
  rw [systemGetc, hp, hc]
  rfl

/-- Settles O34. The byte is taken from the front of the stream before the register is written. -/
theorem getcTakesTheNextByte : Obligations.GetcTakesTheNextByte := by
  intro s ra rb c rest h
  refine ⟨_, exec_getc_of_pending h ra rb, ?value, rfl, rfl, rfl, advanced_of_pc rfl, ?frame⟩
  case value => simp
  case frame =>
    exact changesOnly_advance (changesOnly_writeReg (changesOnly_setStdin (changesOnly_rfl _ s) _ rfl) ra _
      (List.mem_singleton_self ra))

/-- Settles O35. The draw is of the counter's old value, and only the counter goes on. -/
theorem getcAtTheEndStoresAnOpenValue : Obligations.GetcAtTheEndStoresAnOpenValue := by
  intro s ra rb hp hc
  refine ⟨_, exec_getc_of_end hp hc ra rb, ?value, rfl, advanced_of_pc rfl, ?frame⟩
  case value => simp
  case frame =>
    exact changesOnly_advance (changesOnly_writeReg (changesOnly_countDraw (changesOnly_rfl _ s) rfl) ra _
      (List.mem_singleton_self ra))

/-- Bytes supplied on an open stream follow those pending. -/
theorem supplyInput_of_open {s : State} (hc : s.stdin.closed = false) (bytes : List Byte) :
    s.supplyInput bytes = s.setStdin { s.stdin with pending := s.stdin.pending ++ bytes } := by
  rw [State.supplyInput, hc]
  rfl

/-- A frame that leaves the input stream open to change does not tell whether the host changed it first. -/
theorem changesOnly_of_setStdin {f : Footprint} {s t : State} {i : InputStream} (h : ChangesOnly f (s.setStdin i) t)
    (hf : f.stdin = true) : ChangesOnly f s t :=
  ⟨h.regs, h.impl, h.code, h.data, h.stack, h.status, fun e => by simp [hf] at e, h.stdout, h.draws⟩

/-- Settles O36. With a byte supplied the same getc takes the next byte; against the state before the supply only the
stream differs besides. -/
theorem getcWaitsForTheHost : Obligations.GetcWaitsForTheHost := by
  intro s ra rb hp hc
  refine ⟨exec_getc_of_wait hp hc ra rb, fun c rest => ?_⟩
  have hsupplied : (s.supplyInput (c :: rest)).stdin.pending = c :: rest := by
    rw [supplyInput_of_open hc, State.setStdin_stdin, hp, List.nil_append]
  refine (getcTakesTheNextByte _ ra rb c rest hsupplied).imp fun t ⟨hvalue, hpending, _, _, hpc, hframe⟩ => ?_
  rw [supplyInput_of_open hc] at hpc hframe
  exact ⟨hvalue, hpending, hpc, changesOnly_of_setStdin hframe rfl⟩

/-- Settles O37. The byte appended is the low byte of the register. -/
theorem putcAppendsTheLowByte : Obligations.PutcAppendsTheLowByte := by
  intro s ra rb
  refine ⟨_, rfl, ⟨lowByte (s.readReg ra), lowByte_toNat _, rfl⟩, advanced_of_pc rfl, ?frame⟩
  case frame => exact changesOnly_advance (changesOnly_output (changesOnly_rfl _ s) _ rfl)

/-- Settles O38. An index that is 0 or 5 and up is none of the four defined ones. -/
theorem systemPanics : Obligations.SystemPanics := by
  intro s n ra rb
  refine ⟨rfl, fun hn => ?_⟩
  have hne : ∀ k : Byte, 0 < k.toNat → k.toNat < 5 → n ≠ k := by
    rintro k hpos hlt rfl
    omega
  show execSystem n ra rb s = _
  rw [execSystem, if_neg (hne 1 (by decide) (by decide)), if_neg (hne 2 (by decide) (by decide)),
    if_neg (hne 3 (by decide) (by decide)), if_neg (hne 4 (by decide) (by decide)), panic_eq]

end Sys2Proof.Machine
end

section
/-!
PROOFS, the step and the whole machine. What an instruction can answer is said once: it goes on, it halts, it takes its
own panic, or it waits for input. The claims about every step follow case by case.
-/

namespace Sys2Proof.Machine

/-! ### The instruction's own cause of a panic -/

/-- The panic an instruction raises at a state (R251): a zero divisor, or the index of a system call. -/
def ownCause (i : Instr) (s : State) : Option PanicReason :=
  match i with
  | .div _ _ b | .rem _ _ b => if s.readReg b = 0 then some .divideByZero else none
  | .divi _ _ n | .remi _ _ n => if n.toNat = 0 then some .divideByZero else none
  | .system n _ _ =>
    if n.toNat = 4 then some .requested
    else if n.toNat = 0 ∨ 5 ≤ n.toNat then some .undefinedSystemOperation
    else none
  | _ => none

/-- Only the dividing instructions and the system call have one. -/
theorem op_of_ownCause {i : Instr} {s : State} {r : PanicReason} (h : ownCause i s = some r) :
    i.op ∈ [Op.system, .div, .rem, .divi, .remi] := by
  cases i with
  | system | div | rem | divi | remi => simp [Instr.op]
  | _ => cases h

/-- What a write-back goes on to is no panic: it has moved `pc`. -/
theorem writeBack_ne_setStatus (d : RegNum) (v : Word) (s : State) (st : RunStatus) :
    writeBack d v s ≠ .next { s with status := st } := by
  intro h
  have hpc : s.pc + 1 = s.pc := congrArg State.pc (Host.Outcome.next.inj h)
  bv_omega

/-- A division panics exactly on a zero divisor. -/
theorem divideBack_panics_iff (d : RegNum) (b v : Word) (s : State) :
    divideBack d b v s = .next { s with status := .panicked .divideByZero } ↔ b = 0 := by
  rcases divideBack_cases d b v s with ⟨hb, he⟩ | ⟨hb, he⟩
  · exact iff_of_true he hb
  · exact iff_of_false (he ▸ writeBack_ne_setStatus d v s _) hb

/-- A dividing instruction that panics has a zero divisor. -/
theorem ownCause_of_divide {i : Instr} {s : State} (ho : i.op ∈ [Op.div, .rem, .divi, .remi])
    (h : exec i s = .next { s with status := .panicked .divideByZero }) : ownCause i s = some .divideByZero := by
  cases i with
  | div | rem => exact if_pos ((divideBack_panics_iff ..).mp h)
  | divi | remi => exact if_pos (congrArg BitVec.toNat ((zext16_eq_zero _).mp ((divideBack_panics_iff ..).mp h)))
  | _ => simp [Instr.op] at ho

/-- An instruction with a cause of its own takes that panic. -/
theorem exec_of_ownCause {i : Instr} {s : State} {r : PanicReason} (h : ownCause i s = some r) :
    exec i s = .next { s with status := .panicked r } := by
  cases i with
  | div | rem =>
    rw [ownCause] at h
    split at h
    next hb => cases h; exact divideBack_zero hb
    next => cases h
  | divi | remi =>
    rw [ownCause] at h
    split at h
    next hn => cases h; exact divideBack_zero ((zext16_eq_zero _).mpr (BitVec.eq_of_toNat_eq hn))
    next => cases h
  | system n ra rb =>
    rw [ownCause] at h
    split at h
    next hn =>
      cases h
      obtain rfl : n = 4 := BitVec.eq_of_toNat_eq hn
      rfl
    next =>
      split at h
      next hn => cases h; exact (systemPanics s n ra rb).2 hn
      next => cases h
  | _ => cases h

/-! ### What an instruction can answer -/

/-- The output has only grown at its end, the input has only been taken from its front, and the stream is open or closed
as it was (R33, R60 (c)). -/
structure StreamsInOrder (s t : State) : Prop where
  stdout : ∃ out, t.stdout = s.stdout ++ out
  pending : ∃ taken, s.stdin.pending = taken ++ t.stdin.pending
  closed : t.stdin.closed = s.stdin.closed

theorem StreamsInOrder.of_eq {s t : State} (hin : t.stdin = s.stdin) (hout : t.stdout = s.stdout) :
    StreamsInOrder s t :=
  ⟨⟨[], by rw [hout, List.append_nil]⟩, ⟨[], by rw [hin, List.nil_append]⟩, by rw [hin]⟩

theorem StreamsInOrder.trans {s t u : State} (hst : StreamsInOrder s t) (htu : StreamsInOrder t u) :
    StreamsInOrder s u := by
  obtain ⟨⟨out, hout⟩, ⟨taken, htaken⟩, hclosed⟩ := hst
  obtain ⟨⟨out', hout'⟩, ⟨taken', htaken'⟩, hclosed'⟩ := htu
  exact ⟨⟨out ++ out', by rw [hout', hout, List.append_assoc]⟩,
    ⟨taken ++ taken', by rw [htaken, htaken', List.append_assoc]⟩, hclosed'.trans hclosed⟩

/-- The instruction neither stopped the machine nor panicked: the status stays, each part of the state is changed by its
writers only, the streams keep their order, all but the jumps go on to the next address, and the memories stay
canonical. -/
structure GoesOn (i : Instr) (s t : State) : Prop where
  status : t.status = s.status
  code : i.op ≠ .stc → t.code = s.code
  data : i.op ∉ [Op.st, .memset] → t.data = s.data
  stack : i.op ∉ [Op.push, .pushi] → t.stack = s.stack
  impl : i.op ∉ [Op.implicitSet, .implicitIndirectSet] → t.impl = s.impl
  host : i.op ≠ .system → t.stdin = s.stdin ∧ t.stdout = s.stdout ∧ t.draws = s.draws
  order : StreamsInOrder s t
  pc : isJump i = false → t.pc = s.pc + 1
  wf : s.wf = true → t.wf = true

theorem GoesOn.of_quiet {i : Instr} {s t : State} (h : Quiet i s t) : GoesOn i s t := by
  obtain ⟨hstatus, hin, hout, hdraws, hcode, hdata, hstack, himpl, hpc, hwf⟩ := h
  exact ⟨hstatus, hcode, hdata, hstack, himpl, fun _ => ⟨hin, hout, hdraws⟩, .of_eq hin hout, hpc, hwf⟩

/-- A system call that changes only the streams, the draws, a register and `pc` goes on. -/
theorem GoesOn.of_system {n : Byte} {ra rb : RegNum} {s t : State} (hstatus : t.status = s.status)
    (hcode : t.code = s.code) (hdata : t.data = s.data) (hstack : t.stack = s.stack) (himpl : t.impl = s.impl)
    (horder : StreamsInOrder s t) (hpc : t.pc = s.pc + 1) : GoesOn (.system n ra rb) s t :=
  ⟨hstatus, fun _ => hcode, fun _ => hdata, fun _ => hstack, fun _ => himpl, fun h => absurd rfl h, horder,
    fun _ => hpc, fun h => by rwa [State.wf_iff, hcode, hdata, hstack, ← State.wf_iff]⟩

/-- All that an instruction can answer: it goes on, halts, takes its own panic, or waits for input. -/
theorem exec_cases (i : Instr) (s : State) :
    (∃ t, exec i s = .next t ∧ GoesOn i s t) ∨
    (∃ ra rb, i = .system 1 ra rb ∧ exec i s = .next { s with status := .halted }) ∨
    (∃ r, ownCause i s = some r ∧ exec i s = .next { s with status := .panicked r }) ∨
    (∃ ra rb, i = .system 2 ra rb ∧ s.stdin.pending = [] ∧ s.stdin.closed = false ∧
      exec i s = .fault .awaitingInput) := by
  by_cases ho : i.op = .system
  · obtain ⟨n, ra, rb, rfl⟩ := is_system ho
    rcases system_cases n ra rb s with ⟨rfl, he⟩ | ⟨rfl, c, rest, hp, he⟩ | ⟨rfl, -, -, he⟩ | ⟨rfl, hp, hc, he⟩ |
      ⟨rfl, he⟩ | ⟨rfl, he⟩ | ⟨hn, he⟩
    · exact .inr (.inl ⟨ra, rb, rfl, he⟩)
    · exact .inl ⟨_, he, .of_system rfl rfl rfl rfl rfl ⟨⟨[], (List.append_nil _).symm⟩, ⟨[c], hp⟩, rfl⟩ rfl⟩
    · exact .inl ⟨_, he, .of_system rfl rfl rfl rfl rfl (.of_eq rfl rfl) rfl⟩
    · exact .inr (.inr (.inr ⟨ra, rb, rfl, hp, hc, he⟩))
    · exact .inl ⟨_, he, .of_system rfl rfl rfl rfl rfl ⟨⟨[_], rfl⟩, ⟨[], rfl⟩, rfl⟩ rfl⟩
    · exact .inr (.inr (.inl ⟨_, rfl, he⟩))
    · exact .inr (.inr (.inl ⟨_, (if_neg (by omega)).trans (if_pos hn), he⟩))
  · rcases exec_quiet i s ho with ⟨t, he, hq⟩ | ⟨hdiv, he⟩
    · exact .inl ⟨t, he, .of_quiet hq⟩
    · exact .inr (.inr (.inl ⟨_, ownCause_of_divide hdiv he, he⟩))

/-- The inversion of an instruction's next state. -/
theorem exec_next_cases {i : Instr} {s t : State} (h : exec i s = .next t) :
    GoesOn i s t ∨ (∃ ra rb, i = .system 1 ra rb ∧ t = { s with status := .halted }) ∨
    (∃ r, ownCause i s = some r ∧ t = { s with status := .panicked r }) := by
  rcases exec_cases i s with ⟨u, he, hgo⟩ | ⟨ra, rb, hi, he⟩ | ⟨r, hr, he⟩ | ⟨_, _, _, _, _, he⟩ <;> rw [he] at h <;>
    cases h
  · exact .inl hgo
  · exact .inr (.inl ⟨ra, rb, hi, rfl⟩)
  · exact .inr (.inr ⟨r, hr, rfl⟩)

/-- The inversion of a step: its instruction went on or halted, or its panic was taken. -/
theorem step_next_cases {s t : State} (h : step s = .next t) :
    (∃ i, decode s.fetch = .instr i ∧ GoesOn i s t) ∨
    (∃ ra rb, decode s.fetch = .instr (.system 1 ra rb) ∧ t = { s with status := .halted }) ∨
    (∃ r, t = { s with status := .panicked r }) := by
  obtain ⟨-, ⟨r, -, ht⟩ | ⟨i, hd, he⟩⟩ := step_next h
  · exact .inr (.inr ⟨r, ht⟩)
  · rcases exec_next_cases he with hgo | ⟨ra, rb, rfl, ht⟩ | ⟨r, -, ht⟩
    · exact .inl ⟨i, hd, hgo⟩
    · exact .inr (.inl ⟨ra, rb, hd, ht⟩)
    · exact .inr (.inr ⟨r, ht⟩)

/-! ### Claims about every step -/

/-- Settles O51. An instruction that goes on keeps the memories canonical, and halting and panicking leave them. -/
theorem stepKeepsMemoriesCanonical : Obligations.StepKeepsMemoriesCanonical := by
  intro s t hwf h
  rcases step_next_cases h with ⟨i, -, hgo⟩ | ⟨ra, rb, -, rfl⟩ | ⟨r, rfl⟩
  · exact hgo.wf hwf
  · exact hwf
  · exact hwf

/-- Settles O52. A machine that was running and goes on is still running, so the step took a panic. -/
theorem panicWritesNothing : Obligations.PanicWritesNothing := by
  intro s t r hs h ht
  rcases step_next_cases h with ⟨i, -, hgo⟩ | ⟨ra, rb, -, rfl⟩ | ⟨r', rfl⟩
  · rw [hgo.status, hs] at ht; cases ht
  · cases ht
  · cases ht; rfl

/-- Settles O50. Of all that an instruction can answer only the wait for input is no next state. -/
theorem runningMachineHasANextStep : Obligations.RunningMachineHasANextStep := by
  intro s hs
  cases hd : decode s.fetch with
  | undefined r => exact .inl ⟨_, step_of_undefined hs hd⟩
  | instr i =>
    rw [step_of_instr hs hd]
    rcases exec_cases i s with ⟨t, he, -⟩ | ⟨_, _, -, he⟩ | ⟨_, -, he⟩ | ⟨ra, rb, rfl, hp, hc, he⟩
    · exact .inl ⟨_, he⟩
    · exact .inl ⟨_, he⟩
    · exact .inl ⟨_, he⟩
    · exact .inr ⟨⟨ra, rb, rfl⟩, hp, hc, he⟩

/-- Settles O56. What goes on changes each part by its writers only; halting and panicking change the status, and only
the system call and the divisions do either. -/
theorem stateIsWrittenOnlyByItsWriters : Obligations.StateIsWrittenOnlyByItsWriters := by
  intro i s t h
  rcases exec_next_cases h with hgo | ⟨ra, rb, rfl, rfl⟩ | ⟨r, hr, rfl⟩
  · exact ⟨hgo.code, hgo.data, hgo.stack, hgo.impl, hgo.host, fun _ => hgo.status⟩
  · exact ⟨fun _ => rfl, fun _ => rfl, fun _ => rfl, fun _ => rfl, fun _ => ⟨rfl, rfl, rfl⟩,
      fun ho => absurd (List.mem_cons_self ..) ho⟩
  · exact ⟨fun _ => rfl, fun _ => rfl, fun _ => rfl, fun _ => rfl, fun _ => ⟨rfl, rfl, rfl⟩,
      fun ho => absurd (op_of_ownCause hr) ho⟩

/-- Settles O58. A machine that halts or panics is not running afterwards. -/
theorem otherInstructionsAdvance : Obligations.OtherInstructionsAdvance := by
  intro i s t hs h ht hj
  rcases exec_next_cases h with hgo | ⟨ra, rb, rfl, rfl⟩ | ⟨r, -, rfl⟩
  · exact advanced_of_pc (hgo.pc hj)
  · cases ht
  · cases ht

theorem step_streamsInOrder {s t : State} (h : step s = .next t) : StreamsInOrder s t := by
  rcases step_next_cases h with ⟨i, -, hgo⟩ | ⟨ra, rb, -, rfl⟩ | ⟨r, rfl⟩
  · exact hgo.order
  · exact .of_eq rfl rfl
  · exact .of_eq rfl rfl

theorem run_streamsInOrder {n : Nat} {s t : State} (h : core.run n s = .next t) : StreamsInOrder s t := by
  induction n generalizing s with
  | zero => cases h; exact .of_eq rfl rfl
  | succ n ih =>
    obtain ⟨u, hstep, hrun⟩ := run_succ_next h
    exact (step_streamsInOrder hstep).trans (ih hrun)

/-- Settles O59, by induction on the number of steps. -/
theorem streamsKeepTheirOrder : Obligations.StreamsKeepTheirOrder := by
  intro n s t h
  obtain ⟨hout, hin, hclosed⟩ := run_streamsInOrder h
  exact ⟨hout, hin, hclosed⟩

/-! ### The host's word, and stopped machines -/

/-- The host's reading of a whole word is the word. -/
theorem tableWord_toNat (w : CodeWord) : tableWord 32 w.toNat = w := by
  rw [tableWord, Nat.mod_eq_of_lt w.isLt, BitVec.ofNat_toNat, BitVec.setWidth_eq]

/-- Settles O48. Placing a word is one write of code memory at `pc`, which the next fetch reads. -/
theorem placedWordRunsNext : Obligations.PlacedWordRunsNext := by
  intro s w i hs hd
  have hplaced : s.withFetchWord 32 w.toNat = s.writeCode s.pc w := by
    rw [State.withFetchWord, State.placeFetchWord, tableWord_toNat]
  rw [hplaced]
  refine ⟨step_of_instr hs ?fetched, rfl, ?frame⟩
  case fetched => simpa [State.fetch] using hd
  case frame => exact changesOnly_writeCode (changesOnly_rfl _ s) _ _ (List.mem_singleton_self _)

/-- Settles O49. The two laws of a stopped machine's step. -/
theorem stoppedMachineMakesNoStep : Obligations.StoppedMachineMakesNoStep :=
  fun _ => ⟨step_of_halted, fun _ => step_of_panicked⟩

end Sys2Proof.Machine
end

section
/-!
PROOFS, the exceptions family: the listed causes. The table of R251, read off the bits of the fetched word, gives the
panic of an undefined encoding where the decoder does, and the instruction's own cause where it decodes.
-/

namespace Sys2Proof.Machine

/-! ### The decoder's causes -/

/-- The operation numbers that no group lists (R97, R98), as the table of R251 writes them. -/
def Unlisted (grp op : Nat) : Prop :=
  grp = 0 ∧ op ≥ 18 ∨ grp = 1 ∧ op ≥ 12 ∨ grp = 2 ∧ op ≥ 16 ∨ grp = 3 ∧ op ≥ 12 ∨ grp = 4 ∧ op ≥ 5

theorem decode_unlisted {w : CodeWord} (h : Unlisted (w.toNat % 8) (w.toNat / 8 % 32)) :
    decode w = .undefined .undefinedOperation := by
  rcases h with ⟨hg, hn⟩ | ⟨hg, hn⟩ | ⟨hg, hn⟩ | ⟨hg, hn⟩ | ⟨hg, hn⟩
  · exact decode_undefinedOperation (ops := opmapArithmetic) rfl hg hn
  · exact decode_undefinedOperation (ops := config.opmapMove) rfl hg hn
  · exact decode_undefinedOperation (ops := config.opmapJump) rfl hg hn
  · exact decode_undefinedOperation (ops := config.opmapCompare) rfl hg hn
  · exact decode_undefinedOperation (ops := opmapMisc) rfl hg hn

/-- Settles O11. The operation number is past the end of its group's map. -/
theorem undefinedOperationsPanic : Obligations.UndefinedOperationsPanic :=
  fun _ hs h => step_of_undefined hs (decode_unlisted (.inr h))

/-- A word whose operation number its group's map reaches decodes. -/
theorem exists_decode_of_lt_length {w : CodeWord} {g : Nat} {ops : List Op} (hops : opmap g = some ops)
    (hg : w.toNat % 8 = g) (hn : w.toNat / 8 % 32 < ops.length) : ∃ i, decode w = .instr i := by
  refine ⟨buildInstr ops[w.toNat / 8 % 32] w, ?_⟩
  rw [decode, grpOf_toNat, opOf_toNat, hg, hops]
  simp only [List.getElem?_eq_getElem hn]

/-- A word of a defined group with a listed operation number decodes. -/
theorem exists_decode_of_listed {w : CodeWord} (hg : ¬ w.toNat % 8 ≥ 5)
    (hn : ¬ Unlisted (w.toNat % 8) (w.toNat / 8 % 32)) : ∃ i, decode w = .instr i := by
  unfold Unlisted at hn
  obtain h | h | h | h | h : w.toNat % 8 = 0 ∨ w.toNat % 8 = 1 ∨ w.toNat % 8 = 2 ∨ w.toNat % 8 = 3 ∨
    w.toNat % 8 = 4 := by omega
  · exact exists_decode_of_lt_length (ops := opmapArithmetic) rfl h (show _ < 18 by omega)
  · exact exists_decode_of_lt_length (ops := config.opmapMove) rfl h (show _ < 12 by omega)
  · exact exists_decode_of_lt_length (ops := config.opmapJump) rfl h (show _ < 16 by omega)
  · exact exists_decode_of_lt_length (ops := config.opmapCompare) rfl h (show _ < 12 by omega)
  · exact exists_decode_of_lt_length (ops := opmapMisc) rfl h (show _ < 5 by omega)

/-- Where the decoder finds no instruction, the table gives the decoder's panic. -/
theorem panicCause_of_undefined {s : State} {r : PanicReason} (hd : decode s.fetch = .undefined r) :
    panicCause s = some r := by
  by_cases hg : s.fetch.toNat % 8 ≥ 5
  · obtain rfl := Decoded.undefined.inj ((decode_undefinedGroup hg).symm.trans hd)
    exact if_pos hg
  by_cases hn : Unlisted (s.fetch.toNat % 8) (s.fetch.toNat / 8 % 32)
  · obtain rfl := Decoded.undefined.inj ((decode_unlisted hn).symm.trans hd)
    exact (if_neg hg).trans (if_pos hn)
  · obtain ⟨i, hi⟩ := exists_decode_of_listed hg hn
    cases hi.symm.trans hd

/-! ### The instruction's own cause -/

/-- Where the word decodes, the table gives the instruction's own cause. -/
theorem panicCause_of_instr {s : State} {i : Instr} (hd : decode s.fetch = .instr i) :
    panicCause s = ownCause i s := by
  obtain ⟨hgroup, hnumber⟩ := group_number_of_selectOp (selectOp_of_decode hd)
  have hg : s.fetch.toNat % 8 = i.op.group := by rw [hgroup, byte0_toNat]; omega
  have hn : s.fetch.toNat / 8 % 32 = i.op.number := by rw [hnumber, byte0_toNat]; omega
  obtain ⟨-, hi⟩ := byte0_buildInstr_of_decode hd
  have h1 := b1_toNat s.fetch
  have h3 := b3_toNat s.fetch
  simp only [panicCause, hg, hn, ← h1, ← h3, BitVec.ofNat_toNat, BitVec.setWidth_eq]
  generalize i.op = o at hi
  subst hi
  cases o with
  | div | rem =>
    show _ = if s.readReg (b3 s.fetch) = 0 then some PanicReason.divideByZero else none
    by_cases hb : s.readReg (b3 s.fetch) = 0 <;> simp only [hb] <;> rfl
  | divi | remi =>
    show _ = if (b3 s.fetch).toNat = 0 then some PanicReason.divideByZero else none
    by_cases hb : (b3 s.fetch).toNat = 0 <;> simp only [hb] <;> rfl
  | system =>
    show _ = if (b1 s.fetch).toNat = 4 then some PanicReason.requested
      else if (b1 s.fetch).toNat = 0 ∨ 5 ≤ (b1 s.fetch).toNat then some .undefinedSystemOperation else none
    by_cases h4 : (b1 s.fetch).toNat = 4
    · simp only [h4]
      rfl
    · by_cases h5 : (b1 s.fetch).toNat = 0 ∨ (b1 s.fetch).toNat ≥ 5 <;> simp only [h4, h5] <;> rfl
  | _ => rfl

/-- Settles O53. The table gives the decoder's panic or the instruction's own cause; and what goes on, halts or waits is
no panic of a running machine. -/
theorem panicsExactlyOnTheListedCauses : Obligations.PanicsExactlyOnTheListedCauses := by
  intro s r hs
  cases hd : decode s.fetch with
  | undefined r' =>
    rw [step_of_undefined hs hd, panicCause_of_undefined hd]
    simp
  | instr i =>
    rw [step_of_instr hs hd, panicCause_of_instr hd]
    refine ⟨fun he => ?_, exec_of_ownCause⟩
    rcases exec_next_cases he with hgo | ⟨_, _, -, ht⟩ | ⟨r', hr, ht⟩
    · cases hgo.status.trans hs
    · cases congrArg State.status ht
    · cases congrArg State.status ht
      exact hr

/-- Byte 0 of the system call, group 4 and operation 0 (R90). -/
theorem byte0_system : Op.byte0 .system = 4 := rfl

/-- Settles O54. Only `system` 1 halts a running machine, and byte 0 and `b1` of its word are 0x04 and 0x01. -/
theorem haltsExactlyOnSystemOne : Obligations.HaltsExactlyOnSystemOne := by
  intro s hs
  constructor
  · rintro ⟨t, h, ht⟩
    rcases step_next_cases h with ⟨i, -, hgo⟩ | ⟨ra, rb, hd, -⟩ | ⟨r, rfl⟩
    · rw [hgo.status, hs] at ht; cases ht
    · obtain ⟨hbyte, hi⟩ := byte0_buildInstr_of_decode hd
      have h0 : s.fetch.toNat % 256 = 4 := by rw [← byte0_toNat, hbyte, Instr.op, byte0_system]; rfl
      have hsystem : Instr.system 1 ra rb = .system (b1 s.fetch) (b2 s.fetch) (b3 s.fetch) := hi
      have hb1 : 1 = b1 s.fetch := (Instr.system.inj hsystem).1
      have h1 : s.fetch.toNat / 256 % 256 = 1 := by rw [← b1_toNat, ← hb1]; rfl
      omega
    · cases ht
  · intro hw
    have h0 : byte0 s.fetch = Op.byte0 .system :=
      BitVec.eq_of_toNat_eq (by rw [byte0_toNat, byte0_system]; show _ = 4; omega)
    have h1 : b1 s.fetch = 1 := BitVec.eq_of_toNat_eq (by rw [b1_toNat]; show _ = 1; omega)
    have hd : decode s.fetch = .instr (.system 1 (b2 s.fetch) (b3 s.fetch)) := by
      rw [decode_of_byte0 h0, buildInstr, h1]
    exact ⟨_, step_of_instr hs hd, rfl⟩

end Sys2Proof.Machine
end

section
/-!
PROOFS, what each instruction may change and may depend on: its footprint, and the memories it does not read.
-/

namespace Sys2Proof.Machine

/-! ### Footprints -/

section
variable {f : Footprint} {s t : State}

theorem changesOnly_writeBack {d : RegNum} {v : Word} (h : writeBack d v s = .next t) (hd : d ∈ f.regs) :
    ChangesOnly f s t := by
  cases h
  exact changesOnly_advance (changesOnly_writeReg (changesOnly_rfl _ s) d v hd)

theorem changesOnly_divideBack {d : RegNum} {b v : Word} (h : divideBack d b v s = .next t) (hd : d ∈ f.regs)
    (hf : f.status = true) : ChangesOnly f s t := by
  rcases divideBack_cases d b v s with ⟨-, he⟩ | ⟨-, he⟩
  · cases he.symm.trans h
    exact changesOnly_setStatus (changesOnly_rfl _ s) _ hf
  · exact changesOnly_writeBack (he.symm.trans h) hd

theorem changesOnly_pushWord {v : Word} (h : pushWord v s = .next t) (hsp : s.spIdx ∈ f.regs)
    (ha : s.readReg s.spIdx + 1 ∈ f.stack) : ChangesOnly f s t := by
  cases h
  exact changesOnly_advance (changesOnly_writeReg (changesOnly_writeStack (changesOnly_rfl _ s) _ _ ha) _ _ hsp)

theorem changesOnly_writeLink {c : Bool} {l : RegNum} (hl : l ∈ f.regs) : ChangesOnly f s (s.writeLink c l) := by
  rw [State.writeLink_eq]
  exact changesOnly_writeReg (changesOnly_rfl _ s) _ _ hl

theorem changesOnly_branch (h : ChangesOnly f s t) (c : Bool) (n : Word) : ChangesOnly f s (t.branch c n) := by
  rw [State.branch_eq]
  exact changesOnly_jumpTo h _

end

/-- The system call keeps its footprint, index by index. -/
theorem system_keeps_footprint {n : Byte} {ra rb : RegNum} {s t : State} (h : exec (.system n ra rb) s = .next t) :
    ChangesOnly (footprint (.system n ra rb) s) s t := by
  have hstatus (st : RunStatus) (h2 : n ≠ 2) (h3 : n ≠ 3) :
      ChangesOnly (footprint (.system n ra rb) s) s (s.setStatus st) :=
    changesOnly_setStatus (changesOnly_rfl _ s) st (by simp only [footprint, if_neg h2, if_neg h3])
  rcases system_cases n ra rb s with ⟨rfl, he⟩ | ⟨rfl, c, rest, -, he⟩ | ⟨rfl, -, -, he⟩ | ⟨rfl, -, -, he⟩ |
    ⟨rfl, he⟩ | ⟨rfl, he⟩ | ⟨hn, he⟩ <;> rw [he] at h <;> cases h
  · exact hstatus _ (by decide) (by decide)
  · exact changesOnly_advance (changesOnly_writeReg (changesOnly_setStdin (changesOnly_rfl _ s) _ rfl) _ _
      (List.mem_singleton_self _))
  · exact changesOnly_advance (changesOnly_writeReg (changesOnly_countDraw (changesOnly_rfl _ s) rfl) _ _
      (List.mem_singleton_self _))
  · exact changesOnly_advance (changesOnly_output (changesOnly_rfl _ s) _ rfl)
  · exact hstatus _ (by decide) (by decide)
  · refine hstatus _ ?_ ?_ <;> rintro rfl <;> simp at hn

/-- Settles O55. The updates of each instruction are of what its footprint names. -/
theorem everyInstructionKeepsItsFootprint : Obligations.EveryInstructionKeepsItsFootprint := by
  intro i s t h
  cases i with
  | system => exact system_keeps_footprint h
  | div | rem | divi | remi => exact changesOnly_divideBack h (List.mem_singleton_self _) rfl
  | push | pushi => exact changesOnly_pushWord h (List.mem_singleton_self _) (List.mem_singleton_self _)
  | swap | ldc | pop => cases h; exact changesOnly_writeReg_writeReg_advance ..
  | st | memset =>
    cases h
    exact changesOnly_advance (changesOnly_writeData (changesOnly_rfl _ s) _ _ (List.mem_singleton_self _))
  | stc =>
    cases h
    exact changesOnly_advance (changesOnly_writeCode (changesOnly_rfl _ s) _ _ (List.mem_singleton_self _))
  | implicitSet =>
    cases h
    exact changesOnly_advance (changesOnly_writeImpl (changesOnly_rfl _ s) _ _ (List.mem_singleton_self _))
  | implicitIndirectSet ri r =>
    cases h
    have hlow : lowByte (s.readReg ri) = (s.readReg ri).setWidth 8 := BitVec.eq_of_toNat_eq (by simp)
    exact changesOnly_advance (changesOnly_writeImpl (changesOnly_rfl _ s) _ _ (by simp [footprint, hlow]))
  | j | jr | ift | iff => cases h; exact changesOnly_jumpTo (changesOnly_rfl _ s) _
  | jt | jrt | jf | jrf => cases h; exact changesOnly_branch (changesOnly_rfl _ s) _ _
  | jl | jrl | iftl | iffl => cases h; exact changesOnly_jumpTo (changesOnly_writeLink (List.mem_singleton_self _)) _
  | jtl | jrtl | jfl | jrfl => cases h; exact changesOnly_branch (changesOnly_writeLink (List.mem_singleton_self _)) _ _
  | _ => exact changesOnly_writeBack h (List.mem_singleton_self _)

/-! ### Other contents of the memories -/

/-- The state with other contents of the three memories. -/
def State.withMemories (s : State) (c : Mem 32) (d k : Mem 16) : State := { s with code := c, data := d, stack := k }

section
variable {s t : State} {c : Mem 32} {d k : Mem 16}

theorem State.branch_withMemories (b : Bool) (n : Word) :
    (s.withMemories c d k).branch b n = (s.branch b n).withMemories c d k := by cases b <;> rfl

theorem State.writeLink_withMemories (b : Bool) (l : RegNum) :
    (s.withMemories c d k).writeLink b l = (s.writeLink b l).withMemories c d k := by
  rw [State.writeLink_eq, State.writeLink_eq]
  rfl

theorem divideBack_withMemories {r : RegNum} {b v : Word} (h : divideBack r b v s = .next t) :
    divideBack r b v (s.withMemories c d k) = .next (t.withMemories c d k) := by
  by_cases hb : b = 0
  · rw [divideBack_zero hb] at h ⊢; cases h; rfl
  · rw [divideBack_nonzero hb] at h ⊢; cases h; rfl

theorem system_withMemories {n : Byte} {ra rb : RegNum} (h : exec (.system n ra rb) s = .next t) :
    exec (.system n ra rb) (s.withMemories c d k) = .next (t.withMemories c d k) := by
  rcases system_cases n ra rb s with ⟨rfl, he⟩ | ⟨rfl, b, rest, hp, he⟩ | ⟨rfl, hp, hc, he⟩ | ⟨rfl, -, -, he⟩ |
    ⟨rfl, he⟩ | ⟨rfl, he⟩ | ⟨hn, he⟩ <;> rw [he] at h <;> cases h
  · rfl
  · exact exec_getc_of_pending (s := s.withMemories c d k) hp ra rb
  · exact exec_getc_of_end (s := s.withMemories c d k) hp hc ra rb
  · rfl
  · rfl
  · exact (systemPanics _ n ra rb).2 hn

/-- The operations that store to a memory (R50 to R52). -/
def storesToMemory (o : Op) : Bool := o ∈ [Op.stc, .st, .memset, .push, .pushi]

/-- The memories after an instruction that stores to none. -/
theorem memories_of_not_storing {i : Instr} (h : exec i s = .next t) (hi : storesToMemory i.op = false) :
    t.code = s.code ∧ t.data = s.data ∧ t.stack = s.stack := by
  obtain ⟨hcode, hdata, hstack, -⟩ := stateIsWrittenOnlyByItsWriters i s t h
  simp only [storesToMemory, decide_eq_false_iff_not, List.mem_cons, List.not_mem_nil, or_false, not_or]
    at hi hdata hstack
  obtain ⟨hstc, hst, hmemset, hpush, hpushi⟩ := hi
  exact ⟨hcode hstc, hdata ⟨hst, hmemset⟩, hstack ⟨hpush, hpushi⟩⟩

/-- An instruction that stores to no memory and is given the memories it reads as they were does the same over any other
contents, which stay. -/
theorem exec_withMemories_of_not_storing {i : Instr} (h : exec i s = .next t) (hi : storesToMemory i.op = false)
    (hc : i.op = .ldc → c = s.code) (hd : i.op ∈ [Op.ld, .ldi] → d = s.data) (hk : i.op = .pop → k = s.stack) :
    exec i (s.withMemories c d k) = .next (t.withMemories c d k) := by
  cases i with
  | stc | st | memset | push | pushi => cases hi
  | ldc => cases hc rfl; cases h; rfl
  | ld | ldi => cases hd (by simp [Instr.op]); cases h; rfl
  | pop => cases hk rfl; cases h; rfl
  | system => exact system_withMemories h
  | div | rem | divi | remi => exact divideBack_withMemories h
  | jt | jrt | jf | jrf => cases h; exact congrArg Host.Outcome.next (State.branch_withMemories ..)
  | jl | jrl | iftl | iffl =>
    cases h
    exact congrArg (fun u : State => Host.Outcome.next (u.jumpTo _)) (State.writeLink_withMemories ..)
  | jtl | jrtl | jfl | jrfl =>
    cases h
    exact (congrArg (fun u : State => Host.Outcome.next (u.branch _ _)) (State.writeLink_withMemories ..)).trans
      (congrArg Host.Outcome.next (State.branch_withMemories ..))
  | _ => cases h; rfl

/-- An instruction does the same over any other contents of the memories it does not read: the next states differ in the
memories only, and in each of them only where the contents given did. -/
theorem exec_withMemories {i : Instr} (h : exec i s = .next t) (hc : i.op = .ldc → c = s.code)
    (hd : i.op ∈ [Op.ld, .ldi] → d = s.data) (hk : i.op = .pop → k = s.stack) :
    ∃ c' d' k', exec i (s.withMemories c d k) = .next (t.withMemories c' d' k') ∧
      (c = s.code → c' = t.code) ∧ (d = s.data → d' = t.data) ∧ (k = s.stack → k' = t.stack) := by
  cases hi : storesToMemory i.op with
  | false =>
    obtain ⟨hcode, hdata, hstack⟩ := memories_of_not_storing h hi
    exact ⟨c, d, k, exec_withMemories_of_not_storing h hi hc hd hk, fun e => e.trans hcode.symm,
      fun e => e.trans hdata.symm, fun e => e.trans hstack.symm⟩
  | true =>
    cases i with
    | stc => cases h; exact ⟨_, d, k, rfl, fun e => by rw [e]; rfl, id, id⟩
    | st | memset => cases h; exact ⟨c, _, k, rfl, id, fun e => by rw [e]; rfl, id⟩
    | push | pushi => cases h; exact ⟨c, d, _, rfl, id, id, fun e => by rw [e]; rfl⟩
    | _ => cases hi

end

/-- Settles O57. Each memory in turn is given other contents while the other two keep theirs; what was given stays but
for the instruction's own store. -/
theorem memoriesAreReadOnlyByTheirReaders : Obligations.MemoriesAreReadOnlyByTheirReaders := by
  intro i s t h
  refine ⟨fun m hi => ?code, fun m hi => ?data, fun m hi => ?stack⟩
  case code =>
    obtain ⟨c', d', k', he, -, hd, hk⟩ := exec_withMemories (c := m) (d := s.data) (k := s.stack) h
      (fun e => absurd e hi) (fun _ => rfl) (fun _ => rfl)
    obtain ⟨hcode, -⟩ := stateIsWrittenOnlyByItsWriters i _ _ he
    exact ⟨_, he, by rw [hd rfl, hk rfl]; rfl, hcode⟩
  case data =>
    obtain ⟨c', d', k', he, hc, -, hk⟩ := exec_withMemories (c := s.code) (d := m) (k := s.stack) h
      (fun _ => rfl) (fun e => absurd e hi) (fun _ => rfl)
    obtain ⟨-, hdata, -⟩ := stateIsWrittenOnlyByItsWriters i _ _ he
    exact ⟨_, he, by rw [hc rfl, hk rfl]; rfl, hdata⟩
  case stack =>
    obtain ⟨c', d', k', he, hc, hd, -⟩ := exec_withMemories (c := s.code) (d := s.data) (k := m) h
      (fun _ => rfl) (fun _ => rfl) (fun e => absurd e hi)
    obtain ⟨-, -, hstack, -⟩ := stateIsWrittenOnlyByItsWriters i _ _ he
    exact ⟨_, he, by rw [hc rfl, hd rfl]; rfl, hstack⟩

end Sys2Proof.Machine
end
